-- ==== Sys2Proof/Word.lean ====
section
/-! DEFINITION. The unsigned word types of the core (00_scope.md R9): `U<n>` is a bit vector of `n` bits, a bit is a `Bool`. -/

namespace Sys2Proof

/-- `U8`: the no-decision counter and its cap (10_state.md R37). -/
abbrev U8 := BitVec 8

/-- `U16`: positions, readings, counters, table entries and command words (10_state.md R21 to R38). -/
abbrev U16 := BitVec 16

/-- `U32`: the idle-time counter and its thresholds (10_state.md R32). -/
abbrev U32 := BitVec 32

/-- One byte of a serialised trace word (30_encoding.md R103). -/
abbrev Byte := BitVec 8

/-- The 3-bit `mode` register, the core's program counter (10_state.md R35). -/
abbrev ModeBits := BitVec 3

/-- A 16-bit operand from its high byte and its low byte, high byte first (30_encoding.md R103). -/
def wordOf (hi lo : Byte) : U16 := hi ++ lo

/-- The high byte of a 16-bit operand. -/
def hiByte (w : U16) : Byte := w.extractLsb' 8 8

/-- The low byte of a 16-bit operand. -/
def loByte (w : U16) : Byte := w.extractLsb' 0 8

end Sys2Proof
end

