-- ==== Sys2Proof/Config.lean ====
section
/-! DEFINITION. The configuration record `Cfg` (00_scope.md R6), its well-formedness (R7) and the reference configuration (R8). -/

namespace Sys2Proof.Config

/-- A total function `U16 → U16` as plain data: the pairs where it differs from the identity, the first match counting.
Every total function on `U16` is some table, so a claim for every table is a claim for every calibration (00_scope.md R6; log 2). -/
abbrev CalTable := List (U16 × U16)

/-- A read-only table of `n` 16-bit words (20_memory.md R62, R63, R66), entry 0 first. -/
structure Table (n : Nat) where
  entries : List U16
  length_eq : entries.length = n
deriving DecidableEq, Repr

/-- Entry `i` of a table. Every reader forces its index into range (20_memory.md R65). -/
def Table.get {n : Nat} (t : Table n) (i : Nat) (h : i < n) : U16 := t.entries[i]'(by rw [t.length_eq]; exact h)

/-- The table of the first `n` values of a function. -/
def Table.tabulate (n : Nat) (f : Nat → U16) : Table n := ⟨(List.range n).map f, by simp⟩

/-- The fields of `Cfg` (00_scope.md R6), before the constraints of R7. A duration is in microseconds, `none` where it is left open;
no rule reads one (70_reset_and_hazards.md R330; log 13). -/
structure CfgData where
  posFullMax : U16
  posOpMin : U16
  posOpMax : U16
  zeroTolerance : U16
  extAdcSentinel : U16
  calRev : CalTable
  calFwd : CalTable
  minReading : U16
  maxReading : U16
  dbMul : U16
  dbShift : Nat
  minPositionChange : U16
  minPowerChange : U16
  noDecisionCap : U8
  fastPulseCeiling : U16
  fastPulseFloor : U16
  fastInversionThreshold : U16
  stepDeltaFast : U16
  stepDeltaSlow : U16
  lowPowerThreshold : U16
  pwmh : Table 128
  pwml : Table 128
  cool : Table 256
  cooldownFracBits : Nat
  cooldownShift : Nat
  cooldownStartThreshold : U32
  timeOffCeiling : U32
  slowTickPeriod : Option Nat
  stepPeriodFast : Option Nat
  stepPeriodSlow : Option Nat
  wdtWindow : Option Nat
  clkPeriod : Option Nat
deriving DecidableEq, Repr

namespace CfgData

/-- The ranges R6 gives the fields whose type is narrower than a natural number. -/
def rangesOk (c : CfgData) : Bool :=
  c.dbShift ≤ 16 && 1 ≤ c.cooldownFracBits && c.cooldownFracBits ≤ 16 && c.cooldownShift ≤ 31

/-- R7 (1). -/
def positionsOk (c : CfgData) : Bool :=
  c.posOpMin ≤ c.posOpMax && c.posOpMax ≤ c.posFullMax

/-- R7 (2). -/
def readingsOk (c : CfgData) : Bool := c.minReading ≤ c.maxReading

/-- R7 (3): the decibel transform never needs its saturation. -/
def dbRangeOk (c : CfgData) : Bool :=
  ((c.maxReading.toNat - c.minReading.toNat) * c.dbMul.toNat) >>> c.dbShift ≤ 0xFFFF

/-- R7 (4). -/
def thresholdsOk (c : CfgData) : Bool :=
  1 ≤ c.minPositionChange.toNat && 1 ≤ c.minPowerChange.toNat

/-- R7 (5). -/
def pulsesOk (c : CfgData) : Bool :=
  c.fastPulseFloor ≤ c.fastPulseCeiling && c.fastPulseCeiling.toNat < 0xFFFF

/-- R7 (6). -/
def deltasOk (c : CfgData) : Bool := c.stepDeltaSlow ≤ c.stepDeltaFast

/-- R7 (7). -/
def idleOk (c : CfgData) : Bool :=
  1 ≤ c.cooldownStartThreshold.toNat && c.cooldownStartThreshold.toNat < c.timeOffCeiling.toNat
    && c.timeOffCeiling.toNat >>> c.cooldownShift ≤ 255

/-- Entry `i` of the cooldown curve as a number, with the index capped at the last entry. -/
def coolAt (c : CfgData) (i : Nat) : Nat :=
  (c.cool.get (min i 255) (by omega)).toNat

/-- R7 (8): every entry at most the full value, non-increasing, strictly decreasing until it is 0, and 0 at the ceiling's bucket. -/
def coolOk (c : CfgData) : Bool :=
  c.cool.entries.all (fun a => a.toNat ≤ 2 ^ c.cooldownFracBits)
    && (c.cool.entries.zip c.cool.entries.tail).all (fun (a, b) => b.toNat ≤ a.toNat && (a.toNat == 0 || b.toNat < a.toNat))
    && c.coolAt (c.timeOffCeiling.toNat >>> c.cooldownShift) == 0

/-- R7 (9). -/
def lowPowerOk (c : CfgData) : Bool := 1 ≤ c.lowPowerThreshold.toNat

/-- R7 (10). -/
def capOk (c : CfgData) : Bool := 1 ≤ c.noDecisionCap.toNat

/-- The whole of R7: a `Cfg` is well-formed when every part holds. -/
def wellFormed (c : CfgData) : Bool :=
  c.rangesOk && c.positionsOk && c.readingsOk && c.dbRangeOk && c.thresholdsOk && c.pulsesOk && c.deltasOk && c.idleOk && c.coolOk
    && c.lowPowerOk && c.capOk

end CfgData

/-- A well-formed `Cfg`. "the model refuses any other `Cfg`" (00_scope.md R7): no other value of this type exists (log 3). -/
structure Cfg extends CfgData where
  wf : toCfgData.wellFormed = true
deriving DecidableEq, Repr

/-- The synthetic tables and constants of `REFCFG` (00_scope.md R8). -/
def refCfgData : CfgData where
  posFullMax := 1000
  posOpMin := 100
  posOpMax := 900
  zeroTolerance := 4
  extAdcSentinel := 0xFFFF
  calRev := []
  calFwd := []
  minReading := 100
  maxReading := 4095
  dbMul := 5
  dbShift := 1
  minPositionChange := 2
  minPowerChange := 8
  noDecisionCap := 4
  fastPulseCeiling := 200
  fastPulseFloor := 20
  fastInversionThreshold := 4
  stepDeltaFast := 8
  stepDeltaSlow := 2
  lowPowerThreshold := 50
  pwmh := .tabulate 128 fun i => BitVec.ofNat 16 (2000 + i)
  pwml := .tabulate 128 fun i => BitVec.ofNat 16 (500 + i)
  cool := .tabulate 256 fun i => BitVec.ofNat 16 ((255 - i) * 32768 / 255)
  cooldownFracBits := 15
  cooldownShift := 9
  cooldownStartThreshold := 512
  timeOffCeiling := 131071
  slowTickPeriod := some 10000
  stepPeriodFast := none
  stepPeriodSlow := none
  wdtWindow := none
  clkPeriod := none

/-- "`REFCFG` is well-formed under rule R7" (00_scope.md R8). -/
theorem refCfgData_wellFormed : refCfgData.wellFormed = true := by decide +kernel

/-- The reference configuration (00_scope.md R8): the spec's own synthetic instance, no value of the product (log 1). -/
def refCfg : Cfg := { refCfgData with wf := refCfgData_wellFormed }

end Sys2Proof.Config
end

