-- ==== Sys2Proof/Machine/State.lean ====
section
/-! DEFINITION. The state of the core: the state record `S` (10_state.md R20 to R40), the input record `In` (R45), the configuration
(00_scope.md R6), the outputs of the operation just run, and the trace the environment still presents (30_encoding.md R97). -/

namespace Sys2Proof.Machine

/-- One entry of the sample history (10_state.md R40, 30_encoding.md R92). -/
structure HistEntry where
  position : U16
  reversePowerDb : U16
  forwardPowerDb : U16
deriving DecidableEq, Repr

/-- The entry as one 48-bit number, `position` most significant (30_encoding.md R92). -/
def HistEntry.bits (e : HistEntry) : BitVec 48 := e.position ++ e.reversePowerDb ++ e.forwardPowerDb

/-- The entry of an unused history: "uninitialized entries read as zero" (10_state.md R40). -/
def HistEntry.zero : HistEntry := ⟨0, 0, 0⟩

/-- The state record `S`: the stored fields of 10_state.md R21 to R40 and nothing else (R20). -/
structure Regs where
  /-- The motor's present position (R21). -/
  currentPosition : U16
  /-- The position the actuator steps toward (R22). -/
  targetPosition : U16
  /-- Lower bound of travel (R23). -/
  minPosition : U16
  /-- Upper bound of travel (R24). -/
  maxPosition : U16
  /-- The position the tuner returns to when idle (R25). -/
  homePosition : U16
  /-- Consecutive `STEP`s with no position change, saturating (R26). -/
  timeStepsStopped : U16
  /-- The position at the last `CAPTURE` (R28). -/
  positionAtTrigger : U16
  /-- Reverse channel, internal conversion (R29). -/
  revRawInt : U16
  /-- Reverse channel, external converter (R29). -/
  revRawExt : U16
  /-- Forward channel, internal conversion (R29). -/
  fwdRawInt : U16
  /-- Forward channel, external converter (R29). -/
  fwdRawExt : U16
  /-- The handoff flag between capture and control loop (R30). -/
  sampleComplete : Bool
  /-- The rolling pulses-since-idle counter (R31). -/
  pulsesOnThisRun : U16
  /-- The idle-time counter in serviced slow ticks (R32). -/
  timeOffCounter : U32
  /-- Calibrated reverse reading (R33). -/
  revCal : U16
  /-- Calibrated forward reading (R33). -/
  fwdCal : U16
  /-- Reverse power in the units of `ToDb` (R34). -/
  reversePowerDb : U16
  /-- Forward power in the units of `ToDb` (R34). -/
  forwardPowerDb : U16
  /-- The state-machine state, the program counter's analogue (R35). -/
  mode : ModeBits
  /-- The fast-mode-done latch (R36). -/
  fastAfcDone : Bool
  /-- Direction inversions, saturating (R37). -/
  inversionCounter : U16
  /-- Consecutive ties (R37). -/
  noDecisionCounter : U8
  /-- The hot position, the cooldown's starting point (R38). -/
  afcHotPosition : U16
  /-- The manual target (R38). -/
  manualTargetPosition : U16
  /-- Home position not yet set by command (R39). -/
  notConfigured : Bool
  /-- Manual mode requested (R39). -/
  manualModeReq : Bool
  /-- The latched communication fault (R39). -/
  commFault : Bool
  /-- The previous sampled level of `fault_reset_in` (R39). -/
  faultResetPrev : Bool
  /-- The slow-tick flag (R39). -/
  slowTickFlag : Bool
  /-- The sample-history ring `HIST` (R40; log 11). -/
  hist : Vector HistEntry 16
  /-- The index of the entry written last (R40). -/
  activeIndex : BitVec 4
deriving DecidableEq, Repr

/-- The input record `In`: the three level inputs (10_state.md R45), changed by `SETIN` alone (40_control_state_machine.md R129). -/
structure Inputs where
  bringupDone : Bool
  commFaultIn : Bool
  faultResetIn : Bool
deriving DecidableEq, Repr

/-- The five fault classes (60_exceptions.md R270). -/
inductive FaultClass where
  | sensor
  | communication
  | configuration
  | unreachableState
  | catastrophic
deriving DecidableEq, Repr

/-- The class code, "names only" (60_exceptions.md R270). -/
def FaultClass.code : FaultClass → Nat
  | .sensor => 1
  | .communication => 2
  | .configuration => 3
  | .unreachableState => 4
  | .catastrophic => 5

/-- What the operation just run put on the outputs that are no function of the stored fields (log 8): the `wdt_kick` pulse
(10_state.md R45, 44_cooldown_status.md R221) and the fault class it reported (00_scope.md R10, 60_exceptions.md R283). -/
structure Pulses where
  wdtKick : Bool
  raised : Option FaultClass
deriving DecidableEq, Repr

/-- No pulse and no report. -/
def Pulses.quiet : Pulses := ⟨false, none⟩

/-- The whole state of the model. -/
structure State where
  /-- The state record `S`. -/
  regs : Regs
  /-- The input record `In`. -/
  inp : Inputs
  /-- The configuration record, which no operation changes (20_memory.md R66). -/
  cfg : Config.Cfg
  /-- The outputs of the operation just run (log 8). -/
  out : Pulses
  /-- The bytes of the trace not yet run: which agent acts next, and with which operands (30_encoding.md R97; log 4). -/
  trace : List Byte
deriving DecidableEq, Repr

/-- Why the machine stops with a fault: never. Every operation is total and "No operation blocks, none raises a fault that stops the
core except `TRAP`, whose outcome is the reset state" (00_scope.md R12; log 10). -/
inductive Fault where
deriving DecidableEq, Repr

/-- Why a step is refused. Each is a refusal of the trace notation (30_encoding.md R104), never of an operation. -/
inductive Refusal where
  /-- An arm of `exec` that has no meaning yet. Raised by no arm. Safe. -/
  | notModelled (mnemonic : String)
  /-- Raised by `step` when the trace is empty: the environment presents no operation (log 4). Safe. -/
  | traceEnd
  /-- Raised by `step` on a reserved event code (30_encoding.md R104, 93_implementation_defined.md V3). Safe. -/
  | reservedEvent (code : Byte)
  /-- Raised by `step` on a `SETIN` word with one of `levels[7:3]` set (30_encoding.md R104, V3). Safe. -/
  | reservedLevels (levels : Byte)
  /-- Raised by `step` on a trace that ends in the middle of a word (30_encoding.md R104, V3). Safe. -/
  | truncatedWord (code : Byte)
deriving DecidableEq, Repr

/-- The machine right after reset: every stored field at the value of 10_state.md R48 under the reference configuration
(log 1), the level inputs 0 as at the start of every trace (30_encoding.md R101; log 12), no operation presented yet (log 4). -/
def State.reset : State where
  regs := {
    currentPosition := 1000, targetPosition := 1000, minPosition := 0, maxPosition := 1000, homePosition := 1000
    timeStepsStopped := 0, positionAtTrigger := 0, revRawInt := 0, revRawExt := 0, fwdRawInt := 0, fwdRawExt := 0
    sampleComplete := false, pulsesOnThisRun := 0, timeOffCounter := 0
    revCal := 0, fwdCal := 0, reversePowerDb := 0, forwardPowerDb := 0
    mode := 0, fastAfcDone := false, inversionCounter := 0, noDecisionCounter := 0
    afcHotPosition := 0, manualTargetPosition := 0
    notConfigured := true, manualModeReq := false, commFault := false, faultResetPrev := false, slowTickFlag := false
    hist := Vector.replicate 16 HistEntry.zero, activeIndex := 0 }
  inp := ⟨false, false, false⟩
  cfg := Config.refCfg
  out := Pulses.quiet
  trace := []

end Sys2Proof.Machine
end

