-- ==== Sys2Proof/Machine/Operands.lean ====
section
/-! DEFINITION. The pure functions of the spec: the helpers of 00_scope.md R11, the reading transforms of 41_sampling_postpulse.md,
the vote of 42_direction_decision.md, the blend of 44_cooldown_status.md and the table indices of 20_memory.md R65. -/

namespace Sys2Proof.Machine

open Config

/-! ### Helpers (00_scope.md R11) -/

/-- `clamp(v, lo, hi)`, the lower bound tested first. -/
def clamp (v lo hi : Int) : Int :=
  if v < lo then lo else if hi < v then hi else v

/-- A value that a rule has shown to lie in `0 .. 0xFFFF`, as a stored field (00_scope.md R9). -/
def narrow16 (v : Int) : U16 := BitVec.ofNat 16 v.toNat

/-- `sat16(v)`. -/
def sat16 (v : Int) : U16 :=
  if v < 0 then 0x0000#16 else if 0xFFFF < v then 0xFFFF#16 else narrow16 v

/-- `absdiff(a, b)`. -/
def absdiff (a b : U16) : Nat :=
  if b ≤ a then a.toNat - b.toNat else b.toNat - a.toNat

/-- `inc_sat(v, ceil)`; below the ceiling the sum cannot wrap. -/
def incSat {n : Nat} (v ceil : BitVec n) : BitVec n :=
  if v < ceil then v + 1 else v

/-- `inc_wrap16(v)`. -/
def incWrap16 (v : U16) : U16 := v + 1

/-- A value clamped into two stored bounds (43_actuator.md R201, 45_commands.md R255): the result is one of the three, so it fits. -/
def clamp16 (v : Int) (lo hi : U16) : U16 :=
  narrow16 (clamp v lo.toNat hi.toNat)

/-! ### Readings (41_sampling_postpulse.md R151 to R153) -/

/-- The function a calibration table stands for: the first listed pair, else the identity (00_scope.md R6; log 2). -/
def calApply : CalTable → U16 → U16
  | [], x => x
  | (k, v) :: rest, x => if x = k then v else calApply rest x

/-- `Coerce(v)`: the sensor-fault substitution (R151). -/
def coerceReading (c : Cfg) (v : U16) : U16 :=
  if v = c.extAdcSentinel then 0 else v

/-- `ToDb(x)`: the decibel transform (R153), the product formed exactly before the shift. -/
def toDb (c : Cfg) (x : U16) : U16 :=
  let d := (c.maxReading.toNat - clamp x.toNat c.minReading.toNat c.maxReading.toNat : Int).toNat
  BitVec.ofNat 16 (min ((d * c.dbMul.toNat) >>> c.dbShift) 0xFFFF)

/-! ### Directions and votes (30_encoding.md R91, 42_direction_decision.md R171 to R178) -/

/-- A direction (R91). -/
inductive Dir where
  | down
  | up
deriving DecidableEq, Repr

/-- `Up = 1`, `Down = 0` (R91). -/
def dirBit : Dir → Bool
  | .down => false
  | .up => true

/-- `invert(d)` (00_scope.md R11). -/
def invertDir : Dir → Dir
  | .down => .up
  | .up => .down

/-- A vote (R91). -/
inductive Vote where
  | up
  | noData
  | down
deriving DecidableEq, Repr

/-- `VoteUp = 0`, `VoteNoData = 1`, `VoteDown = 2` (R91). -/
def voteValue : Vote → Nat
  | .up => 0
  | .noData => 1
  | .down => 2

/-- `Compare(N, H)`: the vote of the new entry `n` against the historical entry `h` (R173). -/
def compareVote (c : Cfg) (n h : HistEntry) : Vote :=
  if h.position = 0 ∨ h.reversePowerDb = 0 then .noData
  else if absdiff n.position h.position < c.minPositionChange.toNat then .noData
  else if absdiff n.reversePowerDb h.reversePowerDb < c.minPowerChange.toNat then .noData
  else if (h.position < n.position ∧ n.reversePowerDb < h.reversePowerDb)
      ∨ (n.position < h.position ∧ h.reversePowerDb < n.reversePowerDb) then .up
  else .down

/-- The previous direction: up if the trigger position is greater than the newest stored one (R171). -/
def prevDir (trigger : U16) (newest : HistEntry) : Dir :=
  if newest.position < trigger then .up else .down

/-- The target one step away in a direction, saturated and not wrapped (R178). -/
def stepTarget (current delta : U16) : Dir → U16
  | .up => sat16 (current.toNat + delta.toNat)
  | .down => sat16 (current.toNat - delta.toNat)

/-! ### Cooldown (44_cooldown_status.md R225, R226) -/

/-- `Blend(hot, home, m)` with `frac` fraction bits: the distance from home is scaled exactly, truncated, and applied on the side of
home where `hot` lies (R226). -/
def blend (frac : Nat) (hot home m : U16) : U16 :=
  if home ≤ hot then BitVec.ofNat 16 (home.toNat + ((hot.toNat - home.toNat) * m.toNat) >>> frac)
  else BitVec.ofNat 16 (home.toNat - ((home.toNat - hot.toNat) * m.toNat) >>> frac)

/-- The `COOL` index of an idle count: `min(idle >> COOLDOWN_SHIFT, 255)` (R225, 20_memory.md R65). -/
def coolIndex (c : Cfg) (idle : U32) : BitVec 8 :=
  BitVec.ofNat 8 (min (idle.toNat >>> c.cooldownShift) 255)

/-! ### PWM index (43_actuator.md R204) -/

/-- The table index of phase `k`: the position modulo 128, offset by 32 times the phase, modulo 128 (R204). -/
def pwmIndex (position : U16) (k : Fin 4) : BitVec 7 :=
  position.extractLsb' 0 7 + BitVec.ofNat 7 (32 * k.val)

end Sys2Proof.Machine
end

