-- ==== Sys2Proof/Machine/Ops.lean ====
section
/-! DEFINITION. The named operations over the state: the indexed spaces (20_memory.md R60 to R68), the Startup gate (60_exceptions.md
R281), the outputs of an operation, and the restart that `RESET` and `TRAP` share (R284, R285). -/

namespace Sys2Proof.Machine

open Config

/-! ### The indexed spaces -/

/-- Read one whole entry of `HIST` (20_memory.md R61, R67). -/
def histRead (h : Vector HistEntry 16) (i : BitVec 4) : HistEntry :=
  h[i.toNat]'i.isLt

/-- Write one whole entry of `HIST`, all three fields together (20_memory.md R61). -/
def histWrite (h : Vector HistEntry 16) (i : BitVec 4) (e : HistEntry) : Vector HistEntry 16 :=
  h.set i.toNat e i.isLt

/-- `MemRead(PWMH, i)` or `MemRead(PWML, i)` (20_memory.md R62). -/
def pwmRead (t : Config.Table 128) (i : BitVec 7) : U16 :=
  t.get i.toNat i.isLt

/-- `MemRead(COOL, i)` (20_memory.md R63). -/
def coolRead (c : Cfg) (i : BitVec 8) : U16 :=
  c.cool.get i.toNat i.isLt

/-! ### Updates of the state -/

/-- The state with the outputs of an operation that pulses nothing and reports nothing: where every operation begins (log 8). -/
def State.quiet (s : State) : State := { s with out := Pulses.quiet }

/-- The state with the state record changed by `f`. -/
def State.mapRegs (s : State) (f : Regs → Regs) : State := { s with regs := f s.regs }

/-- `raise Fault(class)`: "a label only" (00_scope.md R10, 40_control_state_machine.md R127). -/
def State.raise (s : State) (f : FaultClass) : State := { s with out := { s.out with raised := some f } }

/-- `pulse wdt_kick` (44_cooldown_status.md R221). -/
def State.kick (s : State) : State := { s with out := { s.out with wdtKick := true } }

/-- The state with the level inputs replaced (40_control_state_machine.md R129). -/
def State.setInputs (s : State) (inp : Inputs) : State := { s with inp := inp }

/-- The state with `trace` as what the environment still presents. -/
def State.setTrace (s : State) (trace : List Byte) : State := { s with trace := trace }

/-! ### The gate and the restart -/

/-- The gate of `CAPTURE`, `STEP`, `SLOWTICK` and every `CMD.*`: while `mode = 0` the operation is ignored (60_exceptions.md R281). -/
def gated (s : State) (effect : State → State) : State :=
  if s.regs.mode = 0#3 then s else effect s

/-- `ResetState(Cfg)`: every stored field at its reset value (10_state.md R48). -/
def resetRegs (c : Cfg) : Regs where
  currentPosition := c.posFullMax
  targetPosition := c.posFullMax
  minPosition := 0
  maxPosition := c.posFullMax
  homePosition := c.posFullMax
  timeStepsStopped := 0
  positionAtTrigger := 0
  revRawInt := 0
  revRawExt := 0
  fwdRawInt := 0
  fwdRawExt := 0
  sampleComplete := false
  pulsesOnThisRun := 0
  timeOffCounter := 0
  revCal := 0
  fwdCal := 0
  reversePowerDb := 0
  forwardPowerDb := 0
  mode := 0
  fastAfcDone := false
  inversionCounter := 0
  noDecisionCounter := 0
  afcHotPosition := 0
  manualTargetPosition := 0
  notConfigured := true
  manualModeReq := false
  commFault := false
  faultResetPrev := false
  slowTickFlag := false
  hist := Vector.replicate 16 HistEntry.zero
  activeIndex := 0

/-- The full restart, "no state is salvaged": the one exception entry of the core, shared by `RESET` and `TRAP`. The input levels are not
changed, nothing is saved and there is no return (60_exceptions.md R284, R285, R286). -/
def restart (s : State) : State :=
  s.mapRegs fun _ => resetRegs s.cfg

end Sys2Proof.Machine
end

