-- ==== Sys2Proof/Machine/Actuator.lean ====
section
/-! DEFINITION. The motor/position actuator: `STEP` (43_actuator.md R200 to R205). The PWM lookup is in Flags.lean. -/

namespace Sys2Proof.Machine

open Config

/-- The clamped target, written back before the comparison (R201). -/
def clampedTarget (r : Regs) : U16 :=
  clamp16 r.targetPosition.toNat r.minPosition r.maxPosition

/-- `STEP` on the state record (R202): clamp, then one unit toward the target or one more stopped tick. -/
def stepRegs (c : Cfg) (r : Regs) : Regs :=
  let target := clampedTarget r
  if target < r.currentPosition then
    { r with targetPosition := target, currentPosition := r.currentPosition - 1, timeStepsStopped := 0 }
  else if r.currentPosition < target then
    { r with targetPosition := target, currentPosition := r.currentPosition + 1, timeStepsStopped := 0 }
  else
    { r with targetPosition := target, timeStepsStopped := incSat r.timeStepsStopped c.lowPowerThreshold }

/-- `STEP` past the gate. -/
def stepTick (s : State) : State := s.mapRegs (stepRegs s.cfg)

/-- `STEP` (R202), ignored in `Startup` (60_exceptions.md R281). -/
def execStep (s : State) : Host.Outcome State Fault Refusal :=
  .next (gated s.quiet stepTick)

end Sys2Proof.Machine
end

