-- ==== Sys2Proof/Machine/Commands.lean ====
section
/-! DEFINITION. The command dispatch entry point: the seven `CMD.*` operations (45_commands.md R250 to R257). Data words that a command
does not use are ignored whatever they hold (30_encoding.md R94), so no meaning takes them. -/

namespace Sys2Proof.Machine

/-- The manual target raised by `n`, formed without wrap and clamped into the bounds (R255). -/
def manualUp (n : U16) (r : Regs) : U16 :=
  clamp16 (r.manualTargetPosition.toNat + n.toNat) r.minPosition r.maxPosition

/-- The manual target lowered by `n`, formed as an integer and clamped into the bounds (R256). -/
def manualDown (n : U16) (r : Regs) : U16 :=
  clamp16 (r.manualTargetPosition.toNat - n.toNat) r.minPosition r.maxPosition

/-- A command past the dispatch (R250): the gate of `Startup`, then its writes. -/
def command (s : State) (f : Regs → Regs) : State :=
  gated s.quiet fun t => t.mapRegs f

/-- `CMD.SET_HOME v` (R251): the home is stored unvalidated and the latch is cleared. -/
def execCmdSetHome (v : U16) (s : State) : Host.Outcome State Fault Refusal :=
  .next (command s fun r => { r with homePosition := v, notConfigured := false })

/-- `CMD.SELECT_AFC` (R252). -/
def execCmdSelectAfc (s : State) : Host.Outcome State Fault Refusal :=
  .next (command s fun r => { r with manualModeReq := false })

/-- `CMD.SELECT_MANUAL` (R253). -/
def execCmdSelectManual (s : State) : Host.Outcome State Fault Refusal :=
  .next (command s fun r => { r with manualModeReq := true })

/-- `CMD.SET_MANUAL v` (R254): stored unclamped. -/
def execCmdSetManual (v : U16) (s : State) : Host.Outcome State Fault Refusal :=
  .next (command s fun r => { r with manualTargetPosition := v })

/-- `CMD.MANUAL_UP n` (R255). -/
def execCmdManualUp (n : U16) (s : State) : Host.Outcome State Fault Refusal :=
  .next (command s fun r => { r with manualTargetPosition := manualUp n r })

/-- `CMD.MANUAL_DOWN n` (R256). -/
def execCmdManualDown (n : U16) (s : State) : Host.Outcome State Fault Refusal :=
  .next (command s fun r => { r with manualTargetPosition := manualDown n r })

/-- `CMD.UNKNOWN` (R257): accepted, no change to `S`, no fault. -/
def execCmdUnknown (s : State) : Host.Outcome State Fault Refusal :=
  .next (command s id)

end Sys2Proof.Machine
end

