-- ==== Sys2Proof/Machine/Cooldown.lean ====
section
/-! DEFINITION. The slow tick: `SLOWTICK`, `SLOWSVC` with idle accounting, cooldown decay and fault aggregation
(44_cooldown_status.md R220 to R229). -/

namespace Sys2Proof.Machine

open Config

/-- `SLOWTICK` past the gate: only the flag is raised (R220). -/
def slowtick (s : State) : State := s.mapRegs fun r => { r with slowTickFlag := true }

/-- `SLOWTICK` (R220), ignored in `Startup` (60_exceptions.md R281). -/
def execSlowtick (s : State) : Host.Outcome State Fault Refusal :=
  .next (gated s.quiet slowtick)

/-- The idle count after a serviced slow tick (R222). -/
def nextIdle (c : Cfg) (r : Regs) : U32 := incSat r.timeOffCounter c.timeOffCeiling

/-- The serviced tick's idle count is at or above the cooldown threshold (R223). -/
def cooling (c : Cfg) (r : Regs) : Bool := c.cooldownStartThreshold ≤ nextIdle c r

/-- The hot position after the tick: recorded on the one tick at which idle time reaches the threshold (R224). -/
def nextHot (c : Cfg) (r : Regs) : U16 :=
  if r.timeOffCounter < c.cooldownStartThreshold ∧ c.cooldownStartThreshold ≤ nextIdle c r then r.currentPosition
  else r.afcHotPosition

/-- The cooldown's target (R225). -/
def cooldownTarget (c : Cfg) (r : Regs) : U16 :=
  blend c.cooldownFracBits (nextHot c r) r.homePosition (coolRead c (coolIndex c (nextIdle c r)))

/-- The communication latch after the tick: a rising edge of the reset level clears it, then a reported fault sets it (R227). -/
def nextCommFault (i : Inputs) (r : Regs) : Bool :=
  if i.commFaultIn then true
  else if i.faultResetIn && !r.faultResetPrev then false
  else r.commFault

/-- `SLOWSVC` on the state record, whole (R228). -/
def slowsvcRegs (c : Cfg) (i : Inputs) (r : Regs) : Regs :=
  { r with
    timeOffCounter := nextIdle c r
    afcHotPosition := nextHot c r
    fastAfcDone := if cooling c r then false else r.fastAfcDone
    pulsesOnThisRun := if cooling c r then 0 else r.pulsesOnThisRun
    inversionCounter := if cooling c r then 0 else r.inversionCounter
    targetPosition := if cooling c r ∧ r.mode = 3#3 then cooldownTarget c r else r.targetPosition
    faultResetPrev := i.faultResetIn
    commFault := nextCommFault i r }

/-- `SLOWSVC` (R228): the watchdog kick (R221) and the writes. -/
def slowsvc (s : State) : State := s.kick.mapRegs (slowsvcRegs s.cfg s.inp)

end Sys2Proof.Machine
end

