-- ==== Sys2Proof/Machine/Direction.lean ====
section
/-! DEFINITION. The direction-decision engine `DECIDE` (42_direction_decision.md R170 to R181). -/

namespace Sys2Proof.Machine

open Config

/-- The sample just processed, as a history entry (R172). -/
def newEntry (r : Regs) : HistEntry :=
  ⟨r.positionAtTrigger, r.reversePowerDb, r.forwardPowerDb⟩

/-- The votes of the entry at `a` against the fifteen entries behind it, `k = 1 .. 15` (R174). -/
def votes (c : Cfg) (h : Vector HistEntry 16) (a : BitVec 4) : List Vote :=
  (List.range 15).map fun k => compareVote c (histRead h a) (histRead h (a - BitVec.ofNat 4 (k + 1)))

/-- The vote sum, in `0 .. 30` (R174). -/
def voteSum (c : Cfg) (h : Vector HistEntry 16) (a : BitVec 4) : Nat :=
  ((votes c h a).map voteValue).sum

/-- The direction chosen (R175): down above 15, up below, on a tie the previous direction, inverted once the counter has reached the
cap. -/
def chooseDir (c : Cfg) (prev : Dir) (sum : Nat) (ties : U8) : Dir :=
  if 15 < sum then .down
  else if sum < 15 then .up
  else if c.noDecisionCap ≤ ties then invertDir prev
  else prev

/-- The no-decision counter after the decision (R175): only a tie below the cap counts up, everything else clears. -/
def nextTies (c : Cfg) (sum : Nat) (ties : U8) : U8 :=
  if 15 < sum then 0
  else if sum < 15 then 0
  else if c.noDecisionCap ≤ ties then 0
  else ties + 1

/-- The inversion counter after the decision (R176). -/
def nextInversions (prev dir : Dir) (inversions : U16) : U16 :=
  if dir = prev then inversions else incSat inversions 0xFFFF#16

/-- The fast-mode-done latch (R177): it is only ever set here. -/
def nextFastDone (c : Cfg) (done : Bool) (pulses inversions : U16) : Bool :=
  done || c.fastPulseCeiling < pulses || (c.fastPulseFloor < pulses && c.fastInversionThreshold ≤ inversions)

/-- The step delta of the regime (R177). -/
def stepDelta (c : Cfg) (done : Bool) : U16 :=
  if done then c.stepDeltaSlow else c.stepDeltaFast

/-- The previous direction, taken before the history write (R171). -/
def decidePrev (r : Regs) : Dir := prevDir r.positionAtTrigger (histRead r.hist r.activeIndex)

/-- The history with the new sample as its newest entry (R172). -/
def decideHist (r : Regs) : Vector HistEntry 16 := histWrite r.hist (r.activeIndex + 1) (newEntry r)

/-- The vote sum of the new sample (R174). -/
def decideSum (c : Cfg) (r : Regs) : Nat := voteSum c (decideHist r) (r.activeIndex + 1)

/-- The direction chosen for the new sample (R175). -/
def decideDir (c : Cfg) (r : Regs) : Dir := chooseDir c (decidePrev r) (decideSum c r) r.noDecisionCounter

/-- The inversion counter after the new sample (R176). -/
def decideInversions (c : Cfg) (r : Regs) : U16 := nextInversions (decidePrev r) (decideDir c r) r.inversionCounter

/-- The latch after the new sample, which reads the updated inversion counter (R177). -/
def decideFast (c : Cfg) (r : Regs) : Bool := nextFastDone c r.fastAfcDone r.pulsesOnThisRun (decideInversions c r)

/-- `DECIDE` on the state record, whole (R179). -/
def decideRegs (c : Cfg) (r : Regs) : Regs :=
  { r with
    activeIndex := r.activeIndex + 1
    hist := decideHist r
    noDecisionCounter := nextTies c (decideSum c r) r.noDecisionCounter
    inversionCounter := decideInversions c r
    fastAfcDone := decideFast c r
    targetPosition := stepTarget r.currentPosition (stepDelta c (decideFast c r)) (decideDir c r) }

end Sys2Proof.Machine
end

