-- ==== Sys2Proof/Machine/Sampling.lean ====
section
/-! DEFINITION. The sampler and post-pulse processing: `CAPTURE`, `POSTPULSE` (41_sampling_postpulse.md R150 to R154). -/

namespace Sys2Proof.Machine

open Config

/-- The writes of `CAPTURE` on the state record (R150). The clear of `sample_complete` at entry is not observable: the operation is
atomic (20_memory.md R71). -/
def captureRegs (c : Cfg) (ri re fi fe : U16) (r : Regs) : Regs :=
  { r with
    positionAtTrigger := r.currentPosition
    revRawInt := ri
    fwdRawInt := fi
    revRawExt := coerceReading c re
    fwdRawExt := coerceReading c fe
    sampleComplete := true
    pulsesOnThisRun := incWrap16 r.pulsesOnThisRun
    timeOffCounter := 0 }

/-- `CAPTURE` past the gate: the writes, and the `SENSOR` report when an external reading is the sentinel (R151, 60_exceptions.md R271;
log 9). -/
def capture (ri re fi fe : U16) (s : State) : State :=
  let t := s.mapRegs (captureRegs s.cfg ri re fi fe)
  if re = s.cfg.extAdcSentinel ∨ fe = s.cfg.extAdcSentinel then t.raise .sensor else t

/-- `POSTPULSE` (R152): the external readings are scaled and converted. -/
def postpulseRegs (c : Cfg) (r : Regs) : Regs :=
  { r with
    revCal := calApply c.calRev r.revRawExt
    fwdCal := calApply c.calFwd r.fwdRawExt
    reversePowerDb := toDb c (calApply c.calRev r.revRawExt)
    forwardPowerDb := toDb c (calApply c.calFwd r.fwdRawExt) }

/-- `CAPTURE ri, re, fi, fe` (R150), ignored in `Startup` (60_exceptions.md R281). -/
def execCapture (ri re fi fe : U16) (s : State) : Host.Outcome State Fault Refusal :=
  .next (gated s.quiet (capture ri re fi fe))

end Sys2Proof.Machine
end

