-- ==== Sys2Proof/Machine/Control.lean ====
section
/-! DEFINITION. The control state machine: `SERVICE`, the six mode bodies, `LOOP`, `SETIN` (40_control_state_machine.md R120 to R130). -/

namespace Sys2Proof.Machine

open Config

/-! ### SERVICE (R121) -/

/-- The sample half of `SERVICE` on the state record: the flag is cleared, `POSTPULSE` runs, and `DECIDE` in mode 3 alone (R121). -/
def serveSampleRegs (c : Cfg) (r : Regs) : Regs :=
  if r.sampleComplete then
    let p := postpulseRegs c { r with sampleComplete := false }
    if p.mode = 3#3 then decideRegs c p else p
  else r

/-- The sample half of `SERVICE` (R121). -/
def serveSample (s : State) : State := s.mapRegs (serveSampleRegs s.cfg)

/-- The slow-tick half of `SERVICE` (R121): the flag is cleared and `SLOWSVC` runs. -/
def serveTick (s : State) : State :=
  if s.regs.slowTickFlag then slowsvc (s.mapRegs fun r => { r with slowTickFlag := false }) else s

/-- `SERVICE` (R121): the sample is served before the slow tick. -/
def service (s : State) : State := serveTick (serveSample s)

/-! ### The mode bodies (R122 to R127) -/

/-- `LOOP.Startup` (R122); `SERVICE` is not called. -/
def bodyStartup (s : State) : State :=
  if s.inp.bringupDone then
    s.mapRegs fun r => { r with minPosition := 0, maxPosition := s.cfg.posFullMax, homePosition := s.cfg.posFullMax, mode := 1#3 }
  else s

/-- The writes and the transition of `LOOP.AutoZero` after `SERVICE` (R123). -/
def autoZeroRegs (c : Cfg) (r : Regs) : Regs :=
  { r with
    targetPosition := 0
    mode := if r.currentPosition ≤ c.zeroTolerance ∧ r.notConfigured = false then 2#3 else r.mode }

/-- `LOOP.AutoZero` (R123). -/
def bodyAutoZero (s : State) : State := (service s).mapRegs (autoZeroRegs s.cfg)

/-- The writes and the transition of `LOOP.AutoHome` after `SERVICE` (R124); the test is equality alone (R124, R128; log 17). -/
def autoHomeRegs (c : Cfg) (r : Regs) : Regs :=
  { r with
    minPosition := c.posOpMin
    maxPosition := c.posOpMax
    targetPosition := r.homePosition
    mode := if r.currentPosition = r.homePosition then 3#3 else r.mode }

/-- `LOOP.AutoHome` (R124). -/
def bodyAutoHome (s : State) : State := (service s).mapRegs (autoHomeRegs s.cfg)

/-- The mirror and the transition of `LOOP.RunAfc` after `SERVICE` (R125). -/
def runAfcRegs (r : Regs) : Regs :=
  { r with
    manualTargetPosition := r.targetPosition
    mode := if r.manualModeReq then 4#3 else r.mode }

/-- `LOOP.RunAfc` (R125). -/
def bodyRunAfc (s : State) : State := (service s).mapRegs runAfcRegs

/-- The target and the transition of `LOOP.RunManual` after `SERVICE` (R126). -/
def runManualRegs (r : Regs) : Regs :=
  { r with
    targetPosition := r.manualTargetPosition
    mode := if r.manualModeReq then r.mode else 3#3 }

/-- `LOOP.RunManual` (R126). -/
def bodyRunManual (s : State) : State := (service s).mapRegs runManualRegs

/-- `LOOP.Undefined` (R127): the recoverable fault; only `mode` is written and `SERVICE` is not called. -/
def bodyUndefined (s : State) : State :=
  (s.raise .unreachableState).mapRegs fun r => { r with mode := 3#3 }

/-- The body that the value of `mode` at the start of the `LOOP` selects (R120). -/
def loopBody (s : State) : State :=
  if s.regs.mode = 0#3 then bodyStartup s
  else if s.regs.mode = 1#3 then bodyAutoZero s
  else if s.regs.mode = 2#3 then bodyAutoHome s
  else if s.regs.mode = 3#3 then bodyRunAfc s
  else if s.regs.mode = 4#3 then bodyRunManual s
  else bodyUndefined s

/-! ### The meanings -/

/-- `LOOP` (R120): exactly one body runs; it is never gated (60_exceptions.md R281). -/
def execLoop (s : State) : Host.Outcome State Fault Refusal := .next (loopBody s.quiet)

/-- The micro-operation `LOOP.Startup` (R122), run as `LOOP` runs it (log 6). -/
def execLoopStartup (s : State) : Host.Outcome State Fault Refusal := .next (bodyStartup s.quiet)

/-- The micro-operation `LOOP.AutoZero` (R123). -/
def execLoopAutoZero (s : State) : Host.Outcome State Fault Refusal := .next (bodyAutoZero s.quiet)

/-- The micro-operation `LOOP.AutoHome` (R124). -/
def execLoopAutoHome (s : State) : Host.Outcome State Fault Refusal := .next (bodyAutoHome s.quiet)

/-- The micro-operation `LOOP.RunAfc` (R125). -/
def execLoopRunAfc (s : State) : Host.Outcome State Fault Refusal := .next (bodyRunAfc s.quiet)

/-- The micro-operation `LOOP.RunManual` (R126). -/
def execLoopRunManual (s : State) : Host.Outcome State Fault Refusal := .next (bodyRunManual s.quiet)

/-- The micro-operation `LOOP.Undefined` (R127). -/
def execLoopUndefined (s : State) : Host.Outcome State Fault Refusal := .next (bodyUndefined s.quiet)

/-- `SETIN b, c, r` (R129): the levels change, no field of `S` does; never gated (60_exceptions.md R281). -/
def execSetin (b c r : Bool) (s : State) : Host.Outcome State Fault Refusal :=
  .next (s.quiet.setInputs ⟨b, c, r⟩)

end Sys2Proof.Machine
end

