-- ==== Sys2Proof/Machine/Exceptions.lean ====
section
/-! DEFINITION. The trap and the reset (60_exceptions.md R275, R284, R285): one restart under two names (92_eei_decisions.md D43). -/

namespace Sys2Proof.Machine

/-- `TRAP` (R284): the catastrophic fault is reported and the core restarts; never gated (R281). -/
def execTrap (s : State) : Host.Outcome State Fault Refusal :=
  .next (restart (s.quiet.raise .catastrophic))

/-- `RESET` (R285): power-on, external or watchdog reset; never gated (R281). -/
def execReset (s : State) : Host.Outcome State Fault Refusal :=
  .next (restart s.quiet)

end Sys2Proof.Machine
end

