-- ==== Sys2Proof/Syntax.lean ====
section
/-! DEFINITION. The operation set `A37434-OPS/1`: one constructor per row of spec/opcode_table.json (00_scope.md R5, 30_encoding.md R107). -/

namespace Sys2Proof

/-- The decoded command record of the transport collaborator (30_encoding.md R93). -/
structure CmdRecord where
  index : U16
  data0 : U16
  data1 : U16
  data2 : U16
  data3 : U16
deriving DecidableEq, Repr

/-- The record as one 80-bit number, `index` in bits 79:64 (30_encoding.md R93). -/
def CmdRecord.bits (c : CmdRecord) : BitVec 80 :=
  c.index ++ c.data0 ++ c.data1 ++ c.data2 ++ c.data3

/-- The operations of the core. The first fourteen have a trace word (30_encoding.md R98); the six `loop…` bodies are micro-operations
that `LOOP` selects by the 3-bit `mode` register (30_encoding.md R107, rows of format MODE). -/
inductive Instr where
  /-- `RESET` (60_exceptions.md R285). -/
  | reset
  /-- `TRAP` (60_exceptions.md R284). -/
  | trap
  /-- `LOOP` (40_control_state_machine.md R120). -/
  | loop
  /-- `STEP` (43_actuator.md R202). -/
  | step
  /-- `SLOWTICK` (44_cooldown_status.md R220). -/
  | slowtick
  /-- `CAPTURE ri, re, fi, fe` (41_sampling_postpulse.md R150, operand order of 30_encoding.md R99). -/
  | capture (revInt revExt fwdInt fwdExt : U16)
  /-- `SETIN b, c, r` (40_control_state_machine.md R129, 30_encoding.md R101). -/
  | setin (bringupDone commFaultIn faultResetIn : Bool)
  /-- `CMD.SET_HOME` (45_commands.md R251): `data0` is the home position. -/
  | cmdSetHome (data0 data1 data2 data3 : U16)
  /-- `CMD.SELECT_AFC` (45_commands.md R252). -/
  | cmdSelectAfc (data0 data1 data2 data3 : U16)
  /-- `CMD.SELECT_MANUAL` (45_commands.md R253). -/
  | cmdSelectManual (data0 data1 data2 data3 : U16)
  /-- `CMD.SET_MANUAL` (45_commands.md R254): `data0` is the manual target. -/
  | cmdSetManual (data0 data1 data2 data3 : U16)
  /-- `CMD.MANUAL_UP` (45_commands.md R255): `data0` is the amount. -/
  | cmdManualUp (data0 data1 data2 data3 : U16)
  /-- `CMD.MANUAL_DOWN` (45_commands.md R256): `data0` is the amount. -/
  | cmdManualDown (data0 data1 data2 data3 : U16)
  /-- `CMD.UNKNOWN` (45_commands.md R257): the reserved `index` and the data words. -/
  | cmdUnknown (index data0 data1 data2 data3 : U16)
  /-- `LOOP.Startup` (40_control_state_machine.md R122). -/
  | loopStartup
  /-- `LOOP.AutoZero` (40_control_state_machine.md R123). -/
  | loopAutoZero
  /-- `LOOP.AutoHome` (40_control_state_machine.md R124). -/
  | loopAutoHome
  /-- `LOOP.RunAfc` (40_control_state_machine.md R125). -/
  | loopRunAfc
  /-- `LOOP.RunManual` (40_control_state_machine.md R126). -/
  | loopRunManual
  /-- `LOOP.Undefined` (40_control_state_machine.md R127): the undefined `mode` value that selected it, 5, 6 or 7. -/
  | loopUndefined (value : ModeBits)
deriving DecidableEq, Repr

/-- Whether an operation has a trace word of its own; the mode bodies have none (30_encoding.md R107). -/
def Instr.hasTraceWord : Instr → Bool
  | .reset | .trap | .loop | .step | .slowtick => true
  | .capture _ _ _ _ | .setin _ _ _ => true
  | .cmdSetHome _ _ _ _ | .cmdSelectAfc _ _ _ _ | .cmdSelectManual _ _ _ _ => true
  | .cmdSetManual _ _ _ _ | .cmdManualUp _ _ _ _ | .cmdManualDown _ _ _ _ => true
  | .cmdUnknown _ _ _ _ _ => true
  | .loopStartup | .loopAutoZero | .loopAutoHome | .loopRunAfc | .loopRunManual => false
  | .loopUndefined _ => false

end Sys2Proof
end

