-- ==== Sys2Proof/Machine/Dispatch.lean ====
section
/-! DEFINITION. One arm per operation. -/

namespace Sys2Proof.Machine

def exec (i : Instr) (s : State) : Host.Outcome State Fault Refusal :=
  match i with
  | .reset => Sys2Proof.Machine.execReset s
  | .trap => Sys2Proof.Machine.execTrap s
  | .loop => Sys2Proof.Machine.execLoop s
  | .step => Sys2Proof.Machine.execStep s
  | .slowtick => Sys2Proof.Machine.execSlowtick s
  | .capture ri re fi fe => Sys2Proof.Machine.execCapture ri re fi fe s
  | .setin b c r => Sys2Proof.Machine.execSetin b c r s
  | .cmdSetHome d0 _ _ _ => Sys2Proof.Machine.execCmdSetHome d0 s
  | .cmdSelectAfc _ _ _ _ => Sys2Proof.Machine.execCmdSelectAfc s
  | .cmdSelectManual _ _ _ _ => Sys2Proof.Machine.execCmdSelectManual s
  | .cmdSetManual d0 _ _ _ => Sys2Proof.Machine.execCmdSetManual d0 s
  | .cmdManualUp d0 _ _ _ => Sys2Proof.Machine.execCmdManualUp d0 s
  | .cmdManualDown d0 _ _ _ => Sys2Proof.Machine.execCmdManualDown d0 s
  | .cmdUnknown _ _ _ _ _ => Sys2Proof.Machine.execCmdUnknown s
  | .loopStartup => Sys2Proof.Machine.execLoopStartup s
  | .loopAutoZero => Sys2Proof.Machine.execLoopAutoZero s
  | .loopAutoHome => Sys2Proof.Machine.execLoopAutoHome s
  | .loopRunAfc => Sys2Proof.Machine.execLoopRunAfc s
  | .loopRunManual => Sys2Proof.Machine.execLoopRunManual s
  | .loopUndefined _ => Sys2Proof.Machine.execLoopUndefined s

end Sys2Proof.Machine
end

