-- ==== Sys2Proof/WellFormed.lean ====
section
/-! DEFINITION. Which terms of `Instr` stand for an operation of the core: the operand constraints of 30_encoding.md R90, R95 and R96. -/

namespace Sys2Proof

/-- The command indices that 30_encoding.md R95 defines; every other index is reserved (R96). -/
def definedIndex (index : U16) : Bool :=
  1 ≤ index.toNat && index.toNat ≤ 6

/-- The undefined values of `mode` (30_encoding.md R90). -/
def undefinedMode (value : ModeBits) : Bool :=
  5 ≤ value.toNat

/-- `CMD.UNKNOWN` carries a reserved index (R96) and `LOOP.Undefined` an undefined mode value (R90, R127); every other operand takes
every value of its width. -/
def Instr.wellFormed : Instr → Bool
  | .reset | .trap | .loop | .step | .slowtick => true
  | .capture _ _ _ _ | .setin _ _ _ => true
  | .cmdSetHome _ _ _ _ | .cmdSelectAfc _ _ _ _ | .cmdSelectManual _ _ _ _ => true
  | .cmdSetManual _ _ _ _ | .cmdManualUp _ _ _ _ | .cmdManualDown _ _ _ _ => true
  | .cmdUnknown index _ _ _ _ => !definedIndex index
  | .loopStartup | .loopAutoZero | .loopAutoHome | .loopRunAfc | .loopRunManual => true
  | .loopUndefined value => undefinedMode value

end Sys2Proof
end

