-- ==== Sys2Proof/Decode.lean ====
section
/-! DEFINITION. Decoding and encoding of trace words, command records and mode bodies (30_encoding.md R90 to R107). -/

namespace Sys2Proof

/-- Why a byte sequence does not begin with a trace word (30_encoding.md R104). -/
inductive DecodeError where
  /-- There is no byte left: no operation is presented. -/
  | endOfTrace
  /-- The event code is one of 0x06 to 0x0D or 0x10 to 0xFF. -/
  | reservedEvent (code : Byte)
  /-- A `SETIN` word has one of `levels[7:3]` set. -/
  | reservedLevels (levels : Byte)
  /-- The sequence ends in the middle of the word that `code` begins. -/
  | truncatedWord (code : Byte)
deriving DecidableEq, Repr

/-- The operation that a command record selects; the whole 16-bit index is compared (30_encoding.md R95, R96). -/
def decodeCmd (c : CmdRecord) : Instr :=
  if c.index = 0x0001#16 then .cmdSetHome c.data0 c.data1 c.data2 c.data3
  else if c.index = 0x0002#16 then .cmdSelectAfc c.data0 c.data1 c.data2 c.data3
  else if c.index = 0x0003#16 then .cmdSelectManual c.data0 c.data1 c.data2 c.data3
  else if c.index = 0x0004#16 then .cmdSetManual c.data0 c.data1 c.data2 c.data3
  else if c.index = 0x0005#16 then .cmdManualUp c.data0 c.data1 c.data2 c.data3
  else if c.index = 0x0006#16 then .cmdManualDown c.data0 c.data1 c.data2 c.data3
  else .cmdUnknown c.index c.data0 c.data1 c.data2 c.data3

/-- The body of `LOOP` that a value of the `mode` register selects (30_encoding.md R90, R107; 40_control_state_machine.md R120). -/
def decodeMode (m : ModeBits) : Instr :=
  if m = 0#3 then .loopStartup
  else if m = 1#3 then .loopAutoZero
  else if m = 2#3 then .loopAutoHome
  else if m = 3#3 then .loopRunAfc
  else if m = 4#3 then .loopRunManual
  else .loopUndefined m

/-- The length in bytes of the trace word that an event code begins (30_encoding.md R98, R102), `none` for a reserved code. -/
def wordLength (code : Byte) : Option Nat :=
  if code = 0x00#8 ∨ code = 0x02#8 ∨ code = 0x03#8 ∨ code = 0x0E#8 ∨ code = 0x0F#8 then some 1
  else if code = 0x01#8 then some 9
  else if code = 0x04#8 then some 11
  else if code = 0x05#8 then some 2
  else none

/-- The operand bytes of a `CAPTURE` word (30_encoding.md R99). -/
def decodeCapture : List Byte → Except DecodeError (Instr × List Byte)
  | a1 :: a0 :: b1 :: b0 :: c1 :: c0 :: d1 :: d0 :: rest =>
    .ok (.capture (wordOf a1 a0) (wordOf b1 b0) (wordOf c1 c0) (wordOf d1 d0), rest)
  | _ => .error (.truncatedWord 0x01#8)

/-- The record bytes of a `CMD` word (30_encoding.md R93, R100). -/
def decodeCommand : List Byte → Except DecodeError (Instr × List Byte)
  | i1 :: i0 :: a1 :: a0 :: b1 :: b0 :: c1 :: c0 :: d1 :: d0 :: rest =>
    .ok (decodeCmd ⟨wordOf i1 i0, wordOf a1 a0, wordOf b1 b0, wordOf c1 c0, wordOf d1 d0⟩, rest)
  | _ => .error (.truncatedWord 0x04#8)

/-- The levels byte of a `SETIN` word: bits 7:3 must be 0 (30_encoding.md R101). -/
def decodeSetin : List Byte → Except DecodeError (Instr × List Byte)
  | levels :: rest =>
    if levels.extractLsb' 3 5 = 0#5 then .ok (.setin (levels.getLsbD 0) (levels.getLsbD 1) (levels.getLsbD 2), rest)
    else .error (.reservedLevels levels)
  | [] => .error (.truncatedWord 0x05#8)

/-- The operation whose trace word the byte sequence begins with, and the bytes after that word; total on any bytes
(30_encoding.md R98 to R104). -/
def decode : List Byte → Except DecodeError (Instr × List Byte)
  | [] => .error .endOfTrace
  | code :: rest =>
    if code = 0x00#8 then .ok (.loop, rest)
    else if code = 0x01#8 then decodeCapture rest
    else if code = 0x02#8 then .ok (.step, rest)
    else if code = 0x03#8 then .ok (.slowtick, rest)
    else if code = 0x04#8 then decodeCommand rest
    else if code = 0x05#8 then decodeSetin rest
    else if code = 0x0E#8 then .ok (.trap, rest)
    else if code = 0x0F#8 then .ok (.reset, rest)
    else .error (.reservedEvent code)

/-- The operations of a whole byte sequence, at most `fuel` words; an illegal word anywhere refuses the sequence
(30_encoding.md R104). -/
def decodeWords : Nat → List Byte → Except DecodeError (List Instr)
  | _, [] => .ok []
  | 0, code :: _ => .error (.truncatedWord code)
  | fuel + 1, code :: rest =>
    match decode (code :: rest) with
    | .error e => .error e
    | .ok (i, rest') =>
      match decodeWords fuel rest' with
      | .error e => .error e
      | .ok is => .ok (i :: is)

/-- The operations of a trace, or the reason why the bytes are not a trace (30_encoding.md R97, R104). Every word takes at least one
byte, so as many words as there are bytes are enough. -/
def decodeTrace (bytes : List Byte) : Except DecodeError (List Instr) :=
  decodeWords bytes.length bytes

/-! ### Encoding -/

/-- The two bytes of a 16-bit operand, high byte first (30_encoding.md R103). -/
def encodeU16 (w : U16) : List Byte := [hiByte w, loByte w]

/-- The bytes of a `CMD` trace word (30_encoding.md R100). -/
def encodeCmd (c : CmdRecord) : List Byte :=
  0x04#8 :: (encodeU16 c.index ++ encodeU16 c.data0 ++ encodeU16 c.data1 ++ encodeU16 c.data2 ++ encodeU16 c.data3)

/-- The levels byte of a `SETIN` word (30_encoding.md R101, R105). -/
def levelsByte (b c r : Bool) : Byte :=
  0#5 ++ (BitVec.ofBool r ++ BitVec.ofBool c ++ BitVec.ofBool b)

/-- The encoding of an operation: its trace word, or the `mode` value that selects it (30_encoding.md R107). -/
inductive Code where
  | word (bytes : List Byte)
  | mode (bits : ModeBits)
deriving DecidableEq, Repr

/-- The encoding of an operation, from the tables of 30_encoding.md R90, R95, R98 to R101. -/
def encode : Instr → Code
  | .loop => .word [0x00#8]
  | .capture ri re fi fe => .word (0x01#8 :: (encodeU16 ri ++ encodeU16 re ++ encodeU16 fi ++ encodeU16 fe))
  | .step => .word [0x02#8]
  | .slowtick => .word [0x03#8]
  | .cmdSetHome d0 d1 d2 d3 => .word (encodeCmd ⟨0x0001#16, d0, d1, d2, d3⟩)
  | .cmdSelectAfc d0 d1 d2 d3 => .word (encodeCmd ⟨0x0002#16, d0, d1, d2, d3⟩)
  | .cmdSelectManual d0 d1 d2 d3 => .word (encodeCmd ⟨0x0003#16, d0, d1, d2, d3⟩)
  | .cmdSetManual d0 d1 d2 d3 => .word (encodeCmd ⟨0x0004#16, d0, d1, d2, d3⟩)
  | .cmdManualUp d0 d1 d2 d3 => .word (encodeCmd ⟨0x0005#16, d0, d1, d2, d3⟩)
  | .cmdManualDown d0 d1 d2 d3 => .word (encodeCmd ⟨0x0006#16, d0, d1, d2, d3⟩)
  | .cmdUnknown index d0 d1 d2 d3 => .word (encodeCmd ⟨index, d0, d1, d2, d3⟩)
  | .setin b c r => .word [0x05#8, levelsByte b c r]
  | .trap => .word [0x0E#8]
  | .reset => .word [0x0F#8]
  | .loopStartup => .mode 0#3
  | .loopAutoZero => .mode 1#3
  | .loopAutoHome => .mode 2#3
  | .loopRunAfc => .mode 3#3
  | .loopRunManual => .mode 4#3
  | .loopUndefined value => .mode value

/-- The trace word of an operation; a mode body has none (30_encoding.md R107). -/
def encodeWord (i : Instr) : List Byte :=
  match encode i with
  | .word bytes => bytes
  | .mode _ => []

/-- The bytes of a trace (30_encoding.md R97, R103). -/
def encodeTrace (is : List Instr) : List Byte := (is.map encodeWord).flatten

/-- The operation that an encoding stands for: exactly one trace word, or a `mode` value. -/
def decodeCode : Code → Option Instr
  | .mode bits => some (decodeMode bits)
  | .word bytes =>
    match decode bytes with
    | .ok (i, []) => some i
    | .ok (_, _ :: _) => none
    | .error _ => none

/-! ### The numbering of spec/opcode_table.json -/

/-- The `n` low bytes of a number, most significant byte first: a trace word is one number written big-endian
(30_encoding.md R103, R107). -/
def bytesBE : Nat → Nat → List Byte
  | 0, _ => []
  | n + 1, w => BitVec.ofNat 8 (w >>> (8 * n)) :: bytesBE n w

/-- The bytes of the table's word `w` of `nbits` bits, operand bits the table leaves out being 0, cut to the length that its event code
gives (30_encoding.md R102; log 7). -/
def tableBytes (nbits w : Nat) : List Byte :=
  let bytes := bytesBE ((nbits + 7) / 8) w ++ List.replicate 10 0#8
  bytes.take ((wordLength (bytes.headD 0#8)).getD 1)

/-- Whether the table's word is a `mode` value and no trace word (30_encoding.md R107): the rows of format MODE have 3 bits, rounded up
to one byte; the one-byte trace words keep their reading (log 6). -/
def isModeRow (nbits w : Nat) : Bool :=
  decide (w < 8) && (decide (nbits < 8) || (decide (nbits = 8) && decide (wordLength (BitVec.ofNat 8 w) ≠ some 1)))

/-- What the decoder reads from the table's word `w`: the body that a `mode` value selects, or the operation of a trace word
(log 6). -/
def decodeTableWord (nbits w : Nat) : Option Instr :=
  if isModeRow nbits w then some (decodeMode (BitVec.ofNat 3 w))
  else
    match decode (tableBytes nbits w) with
    | .ok (i, _) => some i
    | .error _ => none

end Sys2Proof
end

