-- ==== Sys2Proof/Machine/Fetch.lean ====
section
/-! DEFINITION. Taking the next trace word from the environment's trace (30_encoding.md R97 to R104; log 4, log 5). -/

namespace Sys2Proof.Machine

/-- The refusal that a decoding error becomes (30_encoding.md R104). -/
def refusalOf : DecodeError → Refusal
  | .endOfTrace => .traceEnd
  | .reservedEvent code => .reservedEvent code
  | .reservedLevels levels => .reservedLevels levels
  | .truncatedWord code => .truncatedWord code

/-- The next operation of the trace and the state that has consumed its word. -/
def fetch (s : State) : Except Refusal (Instr × State) :=
  match decode s.trace with
  | .ok (i, rest) => .ok (i, s.setTrace rest)
  | .error e => .error (refusalOf e)

/-- `s` with the table's word as the trace it presents next (30_encoding.md R107). For a `mode` row the register takes the value and
the trace is one `LOOP`, which selects that body (log 6). -/
def placeWord (s : State) (nbits w : Nat) : State :=
  if isModeRow nbits w then (s.setTrace [0x00#8]).mapRegs fun r => { r with mode := BitVec.ofNat 3 w }
  else s.setTrace (tableBytes nbits w)

end Sys2Proof.Machine
end

