-- ==== Sys2Proof/Machine/Step.lean ====
section
/-! DEFINITION. One step: the next operation of the trace runs as one atomic transition (20_memory.md R71). -/

namespace Sys2Proof.Machine

/-- Consume the next trace word and run its operation; a word that is illegal, or no word, is refused by name (30_encoding.md R104). -/
def step (s : State) : Host.Outcome State Fault Refusal :=
  match fetch s with
  | .ok (i, t) => exec i t
  | .error r => .refused r

/-- `s` with the table's word placed where `step` takes its next operation from (log 4, log 7). -/
def State.withFetchWord (s : State) (nbits w : Nat) : State := placeWord s nbits w

end Sys2Proof.Machine
end

