-- ==== Sys2Proof/Machine/Arbiter.lean ====
section
/-! DEFINITION. Sequences of operations (20_memory.md R71) and the order of requests that arrive in one clock cycle (60_exceptions.md
R282; log 16). -/

namespace Sys2Proof.Machine

/-- Run operations one after another (20_memory.md R71), stopping at the first that does not give a next state. -/
def execAll : List Instr → State → Host.Outcome State Fault Refusal
  | [], s => .next s
  | i :: is, s =>
    match exec i s with
    | .next t => execAll is t
    | .fault f => .fault f
    | .refused r => .refused r

/-- The four converter results valid with `pulse_trig` (10_state.md R45). -/
structure Readings where
  revInt : U16
  revExt : U16
  fwdInt : U16
  fwdExt : U16
deriving DecidableEq, Repr

/-- The request wires of one clock cycle (10_state.md R45). `loop` says that the free-running control loop is due (20_memory.md R70). -/
structure Requests where
  rst : Bool
  trapIn : Bool
  pulseTrig : Option Readings
  stepTick : Bool
  slowTick : Bool
  cmdValid : Option CmdRecord
  loop : Bool
deriving DecidableEq, Repr

/-- The operation if its wire fired. -/
def whenSet (b : Bool) (i : Instr) : List Instr := if b then [i] else []

/-- The operations that the requests of one cycle start, highest priority first; after a `RESET` or `TRAP` the others are dropped
(60_exceptions.md R282). -/
def arbitrate (q : Requests) : List Instr :=
  if q.rst then [.reset]
  else if q.trapIn then [.trap]
  else
    (q.pulseTrig.toList.map fun p => .capture p.revInt p.revExt p.fwdInt p.fwdExt)
      ++ whenSet q.stepTick .step
      ++ whenSet q.slowTick .slowtick
      ++ q.cmdValid.toList.map decodeCmd
      ++ whenSet q.loop .loop

/-- One clock cycle: "the result equals running them one after another in the priority order" (20_memory.md R71). -/
def execCycle (q : Requests) (s : State) : Host.Outcome State Fault Refusal :=
  execAll (arbitrate q) s

end Sys2Proof.Machine
end

