-- ==== Sys2Proof/Machine/Flags.lean ====
section
/-! DEFINITION. The derived values and the output ports (10_state.md R41 to R46, 43_actuator.md R203, R204): functions of the stored
fields and the configuration, recomputed combinationally and never stored (90_conflicts.md C3). -/

namespace Sys2Proof.Machine

open Config

/-- `homing_in_progress` (10_state.md R41). -/
def homingInProgress (r : Regs) : Bool := r.mode = 1#3 || r.mode = 2#3

/-- `not_ready` (10_state.md R42). -/
def notReady (r : Regs) : Bool := r.commFault || homingInProgress r

/-- `power_mode_low` (10_state.md R43, 43_actuator.md R203). -/
def powerModeLow (c : Cfg) (r : Regs) : Bool := c.lowPowerThreshold ≤ r.timeStepsStopped

/-- `step_rate_fast` (10_state.md R44). -/
def stepRateFast (r : Regs) : Bool := !r.fastAfcDone

/-- The 16-bit `STATUS` word (10_state.md R46), bits 15:12 reserved and 0. -/
def statusWord (c : Cfg) (r : Regs) : BitVec 16 :=
  0#4 ++ (BitVec.ofBool r.slowTickFlag ++ r.mode ++ BitVec.ofBool r.sampleComplete ++ BitVec.ofBool r.manualModeReq
    ++ BitVec.ofBool (powerModeLow c r) ++ BitVec.ofBool r.fastAfcDone ++ BitVec.ofBool (homingInProgress r)
    ++ BitVec.ofBool r.notConfigured ++ BitVec.ofBool r.commFault ++ BitVec.ofBool (notReady r))

/-- The table of the present power mode (43_actuator.md R203, R204). -/
def pwmTable (c : Cfg) (r : Regs) : Config.Table 128 :=
  if powerModeLow c r then c.pwml else c.pwmh

/-- `pwm_duty_k`, the duty value of phase `k` (43_actuator.md R204). -/
def pwmDuty (c : Cfg) (r : Regs) (k : Fin 4) : U16 :=
  pwmRead (pwmTable c r) (pwmIndex r.currentPosition k)

/-- The output ports (10_state.md R45); every stored field is observable besides. -/
structure Ports where
  pwmDuty0 : U16
  pwmDuty1 : U16
  pwmDuty2 : U16
  pwmDuty3 : U16
  stepRateFast : Bool
  notReady : Bool
  fault : Bool
  wdtKick : Bool
  status : BitVec 16
deriving DecidableEq, Repr

/-- The values on the output ports (10_state.md R45). -/
def ports (s : State) : Ports where
  pwmDuty0 := pwmDuty s.cfg s.regs 0
  pwmDuty1 := pwmDuty s.cfg s.regs 1
  pwmDuty2 := pwmDuty s.cfg s.regs 2
  pwmDuty3 := pwmDuty s.cfg s.regs 3
  stepRateFast := stepRateFast s.regs
  notReady := notReady s.regs
  fault := s.regs.commFault
  wdtKick := s.out.wdtKick
  status := statusWord s.cfg s.regs

end Sys2Proof.Machine
end

