-- ==== Sys2Proof/Safety.lean ====
section
/-! DEFINITION. What counts as a safe run, in the terms claims use. -/

namespace Sys2Proof.Machine

open Config

/-- The operations that are ignored while `mode = 0` (60_exceptions.md R281). -/
def isGated : Instr → Bool
  | .capture _ _ _ _ | .step | .slowtick => true
  | .cmdSetHome _ _ _ _ | .cmdSelectAfc _ _ _ _ | .cmdSelectManual _ _ _ _ => true
  | .cmdSetManual _ _ _ _ | .cmdManualUp _ _ _ _ | .cmdManualDown _ _ _ _ | .cmdUnknown _ _ _ _ _ => true
  | .reset | .trap | .loop | .setin _ _ _ => false
  | .loopStartup | .loopAutoZero | .loopAutoHome | .loopRunAfc | .loopRunManual | .loopUndefined _ => false

/-- The two operations that restart the core (60_exceptions.md R284, R285). -/
def isRestart (i : Instr) : Bool := i = .reset || i = .trap

/-- `t` is `s` with the state record `r`: only the outputs of the operation may differ besides (the frame of an operation that writes
`S` alone). -/
def OnlyRegs (s t : State) (r : Regs) : Prop := t = { s with regs := r, out := t.out }

/-- The place of an operation in the priority of simultaneous requests, highest first (60_exceptions.md R282). -/
def requestRank : Instr → Nat
  | .reset => 0
  | .trap => 1
  | .capture _ _ _ _ => 2
  | .step => 3
  | .slowtick => 4
  | .cmdSetHome _ _ _ _ | .cmdSelectAfc _ _ _ _ | .cmdSelectManual _ _ _ _ => 5
  | .cmdSetManual _ _ _ _ | .cmdManualUp _ _ _ _ | .cmdManualDown _ _ _ _ | .cmdUnknown _ _ _ _ _ => 5
  | .loop => 6
  | .setin _ _ _ => 7
  | .loopStartup | .loopAutoZero | .loopAutoHome | .loopRunAfc | .loopRunManual | .loopUndefined _ => 7

/-- Every field of a record is the one 10_state.md R48 gives at reset. -/
structure IsResetRecord (c : Cfg) (r : Regs) : Prop where
  mode : r.mode = 0
  positions : r.currentPosition = c.posFullMax ∧ r.targetPosition = c.posFullMax
  bounds : r.minPosition = 0 ∧ r.maxPosition = c.posFullMax ∧ r.homePosition = c.posFullMax
  stopped : r.timeStepsStopped = 0
  snapshot : r.positionAtTrigger = 0 ∧ r.revRawInt = 0 ∧ r.revRawExt = 0 ∧ r.fwdRawInt = 0 ∧ r.fwdRawExt = 0
  markers : r.sampleComplete = false ∧ r.slowTickFlag = false
  counters : r.pulsesOnThisRun = 0 ∧ r.timeOffCounter = 0
  readings : r.revCal = 0 ∧ r.fwdCal = 0 ∧ r.reversePowerDb = 0 ∧ r.forwardPowerDb = 0
  decisions : r.fastAfcDone = false ∧ r.inversionCounter = 0 ∧ r.noDecisionCounter = 0
  targets : r.afcHotPosition = 0 ∧ r.manualTargetPosition = 0
  configured : r.notConfigured = true
  latches : r.manualModeReq = false ∧ r.commFault = false ∧ r.faultResetPrev = false
  history : (∀ i, histRead r.hist i = ⟨0, 0, 0⟩) ∧ r.activeIndex = 0

/-- The invariant of every run: what the rules guarantee of the stored fields at every moment (10_state.md R26, R27, R32, R37;
40_control_state_machine.md R122 to R128). -/
structure Inv (s : State) : Prop where
  /-- No rule writes 5, 6 or 7 into `mode` (40_control_state_machine.md R127). -/
  modeDefined : s.regs.mode.toNat ≤ 4
  /-- In `Startup` every stored field still has its reset value: nothing is taken there (60_exceptions.md R281). -/
  startup : s.regs.mode = 0 → s.regs = resetRegs s.cfg
  /-- The bounds are the full range until homing narrows them, and the operational range afterwards (10_state.md R23, R24). -/
  bounds : (s.regs.minPosition = 0 ∧ s.regs.maxPosition = s.cfg.posFullMax ∧ s.regs.mode.toNat ≤ 2)
    ∨ (s.regs.minPosition = s.cfg.posOpMin ∧ s.regs.maxPosition = s.cfg.posOpMax ∧ 2 ≤ s.regs.mode.toNat)
  /-- The motor never leaves the full range of travel (10_state.md R21, R27). -/
  travel : s.regs.currentPosition ≤ s.cfg.posFullMax
  /-- Past `AutoZero` the home position has been set by command (40_control_state_machine.md R123). -/
  configured : 2 ≤ s.regs.mode.toNat → s.regs.notConfigured = false
  /-- The idle counter "never exceeds `Cfg.TIME_OFF_CEILING`" (10_state.md R32). -/
  idle : s.regs.timeOffCounter ≤ s.cfg.timeOffCeiling
  /-- The stopped-ticks counter saturates at the threshold (10_state.md R26). -/
  stopped : s.regs.timeStepsStopped ≤ s.cfg.lowPowerThreshold
  /-- The no-decision counter "never exceeds `Cfg.NO_DECISION_CAP`" (10_state.md R37). -/
  ties : s.regs.noDecisionCounter ≤ s.cfg.noDecisionCap

/-- The operations that leave a homing that cannot finish as it is: all but `CMD.SET_HOME` and the restarts
(40_control_state_machine.md R124 (b)). -/
def keepsHome (i : Instr) : Bool :=
  i.hasTraceWord && !isRestart i && (match i with | .cmdSetHome _ _ _ _ => false | _ => true)

/-- The operations of a manual spell without new manual-target commands: all but the manual-target commands, the return to automatic
mode and the restarts (40_control_state_machine.md R130). -/
def keepsManualTarget (i : Instr) : Bool :=
  i.hasTraceWord && !isRestart i
    && (match i with
      | .cmdSetManual _ _ _ _ | .cmdManualUp _ _ _ _ | .cmdManualDown _ _ _ _ | .cmdSelectAfc _ _ _ _ => false
      | _ => true)

/-- `DECIDE` on one sample, as `SERVICE` runs it after `POSTPULSE` (42_direction_decision.md R170). -/
def decideSample (c : Cfg) (r : Regs) (e : HistEntry) : Regs :=
  decideRegs c { r with positionAtTrigger := e.position, reversePowerDb := e.reversePowerDb, forwardPowerDb := e.forwardPowerDb }

/-- Two states that differ at most in the internal-conversion readings, which are "read by no rule" (10_state.md R29). -/
def EqualButInternal (s t : State) : Prop :=
  t = { s with regs := { s.regs with revRawInt := t.regs.revRawInt, fwdRawInt := t.regs.fwdRawInt } }

end Sys2Proof.Machine
end

