-- ==== Sys2Proof/Certificates/Slice0/Obligations.lean ====
section
/-! DEFINITION. The statements for the provers. Each docstring names the rule of spec/ that the statement formalises; a statement that
rests on a choice of the model says so and names the log entry. -/

open Sys2Proof Sys2Proof.Machine Sys2Proof.Config

/-! ### Restart -/

/-- R285, R48: `RESET` gives every stored field its reset value and leaves `In` and everything else. -/
def Obligations.ResetGivesEveryFieldItsResetValue : Prop :=
  ∀ s : State, ∃ t, exec .reset s = .next t ∧ IsResetRecord s.cfg t.regs ∧ OnlyRegs s t t.regs

/-- R284: `TRAP` reports `CATASTROPHIC` and is otherwise the same transition as `RESET`; `In` is not changed. -/
def Obligations.TrapReportsCatastrophicAndResets : Prop :=
  ∀ s : State, ∃ t u, exec .trap s = .next t ∧ exec .reset s = .next u ∧ IsResetRecord s.cfg t.regs ∧ t.regs = u.regs
    ∧ OnlyRegs s t t.regs ∧ t.out.raised = some .catastrophic

/-- R310: the derived outputs of a core that has just been reset, under every configuration. -/
def Obligations.OutputsRightAfterReset : Prop :=
  ∀ (c : Cfg) (r : Regs), IsResetRecord c r →
    homingInProgress r = false ∧ notReady r = false ∧ r.commFault = false ∧ powerModeLow c r = false ∧ stepRateFast r = true
      ∧ statusWord c r = 0x0004#16
      ∧ ∀ k : Fin 4, pwmDuty c r k = c.pwmh.get ((c.posFullMax.toNat + 32 * k.val) % 128) (Nat.mod_lt _ (by decide))

/-! ### The control loop -/

/-- R120: exactly one body runs per `LOOP`, the one that `mode` selects at its start. -/
def Obligations.LoopRunsTheBodyThatModeSelects : Prop :=
  ∀ s : State, (∃ t, exec .loop s = .next t)
    ∧ (s.regs.mode = 0 → exec .loop s = exec .loopStartup s)
    ∧ (s.regs.mode = 1 → exec .loop s = exec .loopAutoZero s)
    ∧ (s.regs.mode = 2 → exec .loop s = exec .loopAutoHome s)
    ∧ (s.regs.mode = 3 → exec .loop s = exec .loopRunAfc s)
    ∧ (s.regs.mode = 4 → exec .loop s = exec .loopRunManual s)
    ∧ (s.regs.mode = 5 ∨ s.regs.mode = 6 ∨ s.regs.mode = 7 → ∀ v, exec .loop s = exec (.loopUndefined v) s)

/-- R121: `SERVICE` clears the sample flag, runs `POSTPULSE`, and `DECIDE` in mode 3 alone; then it clears the slow-tick flag and runs
`SLOWSVC`. -/
def Obligations.ServiceServesTheSampleThenTheSlowTick : Prop :=
  ∀ s : State,
    let cleared := postpulseRegs s.cfg { s.regs with sampleComplete := false }
    let sampled :=
      if s.regs.sampleComplete = true then (if s.regs.mode = 3 then decideRegs s.cfg cleared else cleared) else s.regs
    let ticked :=
      if s.regs.slowTickFlag = true then slowsvcRegs s.cfg s.inp { sampled with slowTickFlag := false } else sampled
    OnlyRegs s (service s) ticked

/-- R122: `LOOP.Startup` waits for `bringup_done`, then widens the bounds, sets home and goes to `AutoZero`. -/
def Obligations.StartupAdvancesOnBringup : Prop :=
  ∀ s : State, ∃ t, exec .loopStartup s = .next t ∧
    OnlyRegs s t
      (if s.inp.bringupDone = true then
        { s.regs with minPosition := 0, maxPosition := s.cfg.posFullMax, homePosition := s.cfg.posFullMax, mode := 1 }
      else s.regs)

/-- R123: `LOOP.AutoZero` serves, drives the target to 0, and leaves for `AutoHome` only near zero and configured. -/
def Obligations.AutoZeroDrivesToZero : Prop :=
  ∀ s : State, ∃ t, exec .loopAutoZero s = .next t ∧
    let v := (service s).regs
    OnlyRegs s t
      { v with
        targetPosition := 0
        mode := if s.regs.currentPosition ≤ s.cfg.zeroTolerance ∧ s.regs.notConfigured = false then 2 else s.regs.mode }

/-- R124: `LOOP.AutoHome` serves, narrows the bounds, aims at home, and leaves for `RunAfc` exactly at home. -/
def Obligations.AutoHomeNarrowsAndAimsAtHome : Prop :=
  ∀ s : State, ∃ t, exec .loopAutoHome s = .next t ∧
    let v := (service s).regs
    OnlyRegs s t
      { v with
        minPosition := s.cfg.posOpMin
        maxPosition := s.cfg.posOpMax
        targetPosition := s.regs.homePosition
        mode := if s.regs.currentPosition = s.regs.homePosition then 3 else s.regs.mode }

/-- R125: `LOOP.RunAfc` serves, mirrors the target after that, and leaves for `RunManual` on request. -/
def Obligations.RunAfcMirrorsTheTarget : Prop :=
  ∀ s : State, ∃ t, exec .loopRunAfc s = .next t ∧
    let v := (service s).regs
    OnlyRegs s t
      { v with
        manualTargetPosition := v.targetPosition
        mode := if s.regs.manualModeReq = true then 4 else s.regs.mode }

/-- R126: `LOOP.RunManual` serves, takes the manual target, and returns to `RunAfc` when the request clears. -/
def Obligations.RunManualTakesTheManualTarget : Prop :=
  ∀ s : State, ∃ t, exec .loopRunManual s = .next t ∧
    let v := (service s).regs
    OnlyRegs s t
      { v with
        targetPosition := s.regs.manualTargetPosition
        mode := if s.regs.manualModeReq = false then 3 else s.regs.mode }

/-- R127, R274: an undefined mode is forced back to `RunAfc` and nothing else of `S` changes; the fault class is a label. -/
def Obligations.UndefinedModeIsForcedToRunAfc : Prop :=
  ∀ (s : State) (v : ModeBits), ∃ t, exec (.loopUndefined v) s = .next t ∧ OnlyRegs s t { s.regs with mode := 3 }
    ∧ t.out.raised = some .unreachableState ∧ t.out.wdtKick = false
    ∧ (5 ≤ s.regs.mode.toNat → exec .loop s = .next t)

/-- R128: the complete transition relation of `mode`, over every operation that has a trace word. -/
def Obligations.ModeFollowsTheTransitionRelation : Prop :=
  ∀ (i : Instr) (s : State), i.hasTraceWord = true → ∃ t, exec i s = .next t ∧
    t.regs.mode =
      if i = .reset ∨ i = .trap then 0
      else if i ≠ .loop then s.regs.mode
      else if s.regs.mode = 0 then (if s.inp.bringupDone = true then 1 else 0)
      else if s.regs.mode = 1 then
        (if s.regs.currentPosition ≤ s.cfg.zeroTolerance ∧ s.regs.notConfigured = false then 2 else 1)
      else if s.regs.mode = 2 then (if s.regs.currentPosition = s.regs.homePosition then 3 else 2)
      else if s.regs.mode = 3 then (if s.regs.manualModeReq = true then 4 else 3)
      else if s.regs.mode = 4 then (if s.regs.manualModeReq = false then 3 else 4)
      else 3

/-- R129: `SETIN` changes the three levels and no field of `S`. -/
def Obligations.SetinChangesTheLevelsAlone : Prop :=
  ∀ (s : State) (b c r : Bool), ∃ t, exec (.setin b c r) s = .next t ∧ t = { s with inp := ⟨b, c, r⟩, out := t.out }

/-! ### Triggers -/

/-- R281: in `Startup` the gated operations change nothing of `S`; `LOOP`, `SETIN`, `RESET` and `TRAP` act there. -/
def Obligations.StartupIgnoresTriggersAndCommands : Prop :=
  ∀ s : State, s.regs.mode = 0 →
    (∀ i : Instr, isGated i = true → ∃ t, exec i s = .next t ∧ OnlyRegs s t s.regs)
      ∧ (s.inp.bringupDone = true → ∃ t, exec .loop s = .next t ∧ t.regs.mode = 1)
      ∧ (∀ b c r, ∃ t, exec (.setin b c r) s = .next t ∧ t.inp = ⟨b, c, r⟩)
      ∧ (∀ i, i = .reset ∨ i = .trap → ∃ t, exec i s = .next t ∧ IsResetRecord s.cfg t.regs)

/-- R150, R151: a `CAPTURE` is ignored in `Startup`; in every other mode it takes the snapshot, coerces the sentinel of each external
reading alone, counts the pulse modulo 65536 and clears idle time; a sentinel is the `SENSOR` fault. -/
def Obligations.CaptureTakesTheSnapshot : Prop :=
  ∀ (s : State) (ri re fi fe : U16),
    ∃ (t : State) (pulses : U16), exec (.capture ri re fi fe) s = .next t
      ∧ pulses.toNat = (s.regs.pulsesOnThisRun.toNat + 1) % 65536
      ∧ (s.regs.mode = 0 → OnlyRegs s t s.regs)
      ∧ (s.regs.mode ≠ 0 → OnlyRegs s t
        { s.regs with
          sampleComplete := true
          positionAtTrigger := s.regs.currentPosition
          revRawInt := ri
          revRawExt := if re = s.cfg.extAdcSentinel then 0 else re
          fwdRawInt := fi
          fwdRawExt := if fe = s.cfg.extAdcSentinel then 0 else fe
          pulsesOnThisRun := pulses
          timeOffCounter := 0 })
      ∧ (t.out.raised = some .sensor ↔ s.regs.mode ≠ 0 ∧ (re = s.cfg.extAdcSentinel ∨ fe = s.cfg.extAdcSentinel))

/-- R321: a second `CAPTURE` before a `LOOP` replaces the snapshot, counts both pulses, and a `LOOP` in `RunAfc` appends one history
entry, of the second sample. -/
def Obligations.SecondCaptureReplacesTheSample : Prop :=
  ∀ (s : State) (a b : Readings), s.regs.mode = 3 →
    ∃ t u v, execAll [.capture a.revInt a.revExt a.fwdInt a.fwdExt, .capture b.revInt b.revExt b.fwdInt b.fwdExt] s = .next t
      ∧ exec (.capture b.revInt b.revExt b.fwdInt b.fwdExt) s = .next u
      ∧ t.regs = { u.regs with pulsesOnThisRun := s.regs.pulsesOnThisRun + 2 }
      ∧ exec .loop t = .next v
      ∧ v.regs.activeIndex = s.regs.activeIndex + 1
      ∧ histRead v.regs.hist v.regs.activeIndex
          = ⟨s.regs.currentPosition, toDb s.cfg (calApply s.cfg.calRev (coerceReading s.cfg b.revExt)),
              toDb s.cfg (calApply s.cfg.calFwd (coerceReading s.cfg b.fwdExt))⟩
      ∧ ∀ j, j ≠ v.regs.activeIndex → histRead v.regs.hist j = histRead s.regs.hist j

/-- R220, R322: a `SLOWTICK` is ignored in `Startup`; in every other mode it raises the flag and nothing else, so one over a set flag
changes nothing. -/
def Obligations.SlowtickRaisesTheFlagAlone : Prop :=
  ∀ s : State, ∃ t, exec .slowtick s = .next t
    ∧ (s.regs.mode = 0 → OnlyRegs s t s.regs)
    ∧ (s.regs.mode ≠ 0 → OnlyRegs s t { s.regs with slowTickFlag := true })
    ∧ (s.regs.slowTickFlag = true → OnlyRegs s t s.regs)

/-- R282: the requests of one cycle run in priority order, each of those that fired; a restart drops the others; with a pulse and a
step tick in one cycle the captured position is the one before the step. -/
def Obligations.SimultaneousRequestsRunInPriorityOrder : Prop :=
  ∀ q : Requests,
    (q.rst = true → arbitrate q = [.reset])
      ∧ (q.rst = false → q.trapIn = true → arbitrate q = [.trap])
      ∧ List.Pairwise (fun i j => requestRank i < requestRank j) (arbitrate q)
      ∧ (q.rst = false → q.trapIn = false → ∀ i, i ∈ arbitrate q ↔
          (∃ p, q.pulseTrig = some p ∧ i = .capture p.revInt p.revExt p.fwdInt p.fwdExt)
            ∨ (q.stepTick = true ∧ i = .step) ∨ (q.slowTick = true ∧ i = .slowtick)
            ∨ (∃ c, q.cmdValid = some c ∧ i = decodeCmd c) ∨ (q.loop = true ∧ i = .loop))
      ∧ ∀ s : State, s.regs.mode ≠ 0 → q.rst = false → q.trapIn = false → q.pulseTrig ≠ none → q.stepTick = true →
          ∃ t, execCycle q s = .next t ∧ t.regs.positionAtTrigger = s.regs.currentPosition

/-! ### The actuator -/

/-- R202: a `STEP` is ignored in `Startup`; in every other mode it clamps the target, writes it back, and moves one unit toward it or
counts one stopped tick. -/
def Obligations.StepMovesOneUnitTowardTheClampedTarget : Prop :=
  ∀ s : State,
    ∃ (t : State) (target : U16), exec .step s = .next t
      ∧ (target.toNat : Int) = clamp s.regs.targetPosition.toNat s.regs.minPosition.toNat s.regs.maxPosition.toNat
      ∧ (s.regs.mode = 0 → OnlyRegs s t s.regs)
      ∧ (s.regs.mode ≠ 0 → OnlyRegs s t
        { s.regs with
          targetPosition := target
          currentPosition :=
            if target < s.regs.currentPosition then s.regs.currentPosition - 1
            else if s.regs.currentPosition < target then s.regs.currentPosition + 1
            else s.regs.currentPosition
          timeStepsStopped :=
            if s.regs.currentPosition ≠ target then 0
            else if s.regs.timeStepsStopped < s.cfg.lowPowerThreshold then s.regs.timeStepsStopped + 1
            else s.regs.timeStepsStopped })

/-- R205: after a `STEP` the target is inside the bounds and a position that was inside stays inside; repeated `STEP`s reach the clamped
target in as many steps as it is away and then raise the stopped-ticks counter up to the threshold. -/
def Obligations.RepeatedStepsReachTheClampedTarget : Prop :=
  ∀ s : State, s.regs.mode ≠ 0 → s.regs.minPosition ≤ s.regs.maxPosition →
    let target := clamp16 s.regs.targetPosition.toNat s.regs.minPosition s.regs.maxPosition
    (∃ t, exec .step s = .next t
        ∧ t.regs.minPosition ≤ t.regs.targetPosition ∧ t.regs.targetPosition ≤ t.regs.maxPosition
        ∧ (s.regs.minPosition ≤ s.regs.currentPosition → s.regs.currentPosition ≤ s.regs.maxPosition →
            t.regs.minPosition ≤ t.regs.currentPosition ∧ t.regs.currentPosition ≤ t.regs.maxPosition))
      ∧ ∀ k, ∃ u, execAll (List.replicate k .step) s = .next u
        ∧ (absdiff s.regs.currentPosition target ≤ k →
            u.regs.currentPosition = target ∧
            ∃ v, exec .step u = .next v ∧ v.regs.currentPosition = target
              ∧ v.regs.timeStepsStopped.toNat =
                  if u.regs.timeStepsStopped.toNat < s.cfg.lowPowerThreshold.toNat then u.regs.timeStepsStopped.toNat + 1
                  else u.regs.timeStepsStopped.toNat)

/-- R204: the four duties are one table's entries at the position modulo 128 plus 0, 32, 64 and 96, modulo 128, the table being the
low-current one once the stopped-ticks counter has reached the threshold. -/
def Obligations.PwmDutiesComeFromOneTable : Prop :=
  ∀ (c : Cfg) (r : Regs) (k : Fin 4),
    pwmDuty c r k =
      (if c.lowPowerThreshold.toNat ≤ r.timeStepsStopped.toNat then c.pwml else c.pwmh).get
        ((r.currentPosition.toNat % 128 + 32 * k.val) % 128) (Nat.mod_lt _ (by decide))

/-! ### Readings and decisions -/

/-- R152: `POSTPULSE` scales the external readings and converts the scaled ones, and changes nothing else. -/
def Obligations.PostpulseScalesAndConverts : Prop :=
  ∀ (c : Cfg) (r : Regs), ∃ rc fc : U16, rc = calApply c.calRev r.revRawExt ∧ fc = calApply c.calFwd r.fwdRawExt
    ∧ postpulseRegs c r
        = { r with revCal := rc, fwdCal := fc, reversePowerDb := toDb c rc, forwardPowerDb := toDb c fc }

/-- R153: the exact value of the decibel transform; under a well-formed `Cfg` its final saturation never bites. -/
def Obligations.ToDbIsTheExactAffineTransform : Prop :=
  ∀ (c : Cfg) (x : U16),
    let clamped := max c.minReading.toNat (min x.toNat c.maxReading.toNat)
    (toDb c x).toNat = ((c.maxReading.toNat - clamped) * c.dbMul.toNat) / 2 ^ c.dbShift
      ∧ ((c.maxReading.toNat - clamped) * c.dbMul.toNat) / 2 ^ c.dbShift ≤ 0xFFFF

/-- R154: the transform is non-increasing and saturates at both declared bounds. -/
def Obligations.ToDbNeverIncreasesAndSaturates : Prop :=
  ∀ (c : Cfg) (x y : U16), (x ≤ y → toDb c y ≤ toDb c x) ∧ (x ≤ c.minReading → toDb c x = toDb c c.minReading)
    ∧ (c.maxReading ≤ x → toDb c x = 0)

/-- The model's choice of log 2: a calibration table stands for any total function on 16 bits, so a claim for every configuration is a
claim for every calibration (R6). -/
def Obligations.EveryCalibrationIsATable : Prop :=
  ∀ f : U16 → U16, ∃ t : CalTable, ∀ x, calApply t x = f x

/-- R173: the vote of a new entry against a historical one; past the three tests the two directions have opposite signs exactly when the
vote is up, and both increased or both decreased when it is down. -/
def Obligations.CompareVotesByTheSignsOfBothChanges : Prop :=
  ∀ (c : Cfg) (n h : HistEntry),
    let quietPair := h.position = 0 ∨ h.reversePowerDb = 0 ∨ absdiff n.position h.position < c.minPositionChange.toNat
      ∨ absdiff n.reversePowerDb h.reversePowerDb < c.minPowerChange.toNat
    (quietPair → compareVote c n h = .noData)
      ∧ (¬ quietPair →
          (compareVote c n h = .up ↔
            (h.position < n.position ∧ n.reversePowerDb < h.reversePowerDb)
              ∨ (n.position < h.position ∧ h.reversePowerDb < n.reversePowerDb))
          ∧ (compareVote c n h = .down ↔
            (h.position < n.position ∧ h.reversePowerDb < n.reversePowerDb)
              ∨ (n.position < h.position ∧ n.reversePowerDb < h.reversePowerDb)))

/-- R174: the vote sum is the sum of the fifteen comparisons with the entries behind the newest, with `Up` 0, `NoData` 1, `Down` 2, and
lies in 0 .. 30. -/
def Obligations.VoteSumAddsFifteenComparisons : Prop :=
  ∀ (c : Cfg) (h : Vector HistEntry 16) (a : BitVec 4),
    voteSum c h a = ∑ k ∈ Finset.Icc 1 15,
        (match compareVote c (histRead h a) (histRead h (BitVec.ofNat 4 ((a.toNat + 16 - k) % 16))) with
          | .up => 0
          | .noData => 1
          | .down => 2)
      ∧ voteSum c h a ≤ 30

/-- R179: `DECIDE`, its seven steps, and its frame. -/
def Obligations.DecideFollowsTheSevenSteps : Prop :=
  ∀ (c : Cfg) (r : Regs),
    let t := decideRegs c r
    let a := r.activeIndex + 1
    let sum := voteSum c t.hist a
    let delta := if t.fastAfcDone = true then c.stepDeltaSlow else c.stepDeltaFast
    ∃ prev dir : Dir,
      (prev = .up ↔ (histRead r.hist r.activeIndex).position < r.positionAtTrigger)
      ∧ t.activeIndex = a
      ∧ histRead t.hist a = ⟨r.positionAtTrigger, r.reversePowerDb, r.forwardPowerDb⟩
      ∧ (∀ j, j ≠ a → histRead t.hist j = histRead r.hist j)
      ∧ (15 < sum → dir = .down ∧ t.noDecisionCounter = 0)
      ∧ (sum < 15 → dir = .up ∧ t.noDecisionCounter = 0)
      ∧ (sum = 15 → c.noDecisionCap ≤ r.noDecisionCounter → dir ≠ prev ∧ t.noDecisionCounter = 0)
      ∧ (sum = 15 → r.noDecisionCounter < c.noDecisionCap →
          dir = prev ∧ t.noDecisionCounter.toNat = r.noDecisionCounter.toNat + 1)
      ∧ t.inversionCounter.toNat =
          (if dir = prev then r.inversionCounter.toNat else min (r.inversionCounter.toNat + 1) 0xFFFF)
      ∧ (t.fastAfcDone = true ↔ r.fastAfcDone = true ∨ c.fastPulseCeiling < r.pulsesOnThisRun
          ∨ (c.fastPulseFloor < r.pulsesOnThisRun ∧ c.fastInversionThreshold ≤ t.inversionCounter))
      ∧ (dir = .up → t.targetPosition.toNat = min (r.currentPosition.toNat + delta.toNat) 0xFFFF)
      ∧ (dir = .down → t.targetPosition.toNat = r.currentPosition.toNat - delta.toNat)
      ∧ t = { r with
          activeIndex := t.activeIndex, hist := t.hist, noDecisionCounter := t.noDecisionCounter
          inversionCounter := t.inversionCounter, fastAfcDone := t.fastAfcDone, targetPosition := t.targetPosition }

/-- R180: after any number of `DECIDE`s the index has advanced by that number modulo 16, the entry `k` places behind it is the sample
of `k` calls ago, and the entries not yet overwritten are untouched. -/
def Obligations.HistoryIsAFifoOfSixteenSamples : Prop :=
  ∀ (c : Cfg) (r : Regs) (samples : List HistEntry),
    let t := samples.foldl (decideSample c) r
    t.activeIndex = r.activeIndex + BitVec.ofNat 4 samples.length
      ∧ ∀ k, k < 16 →
          (k < samples.length →
            samples[samples.length - 1 - k]? = some (histRead t.hist (t.activeIndex - BitVec.ofNat 4 k)))
          ∧ (samples.length ≤ k →
            histRead t.hist (t.activeIndex - BitVec.ofNat 4 k) = histRead r.hist (t.activeIndex - BitVec.ofNat 4 k))

/-- R181, R175: identical samples tie every time, and the tie after `NO_DECISION_CAP` of them inverts the direction, with the counter
starting at 0 and every historical entry empty or at the sample's position. -/
def Obligations.IdenticalSamplesForceAnInversion : Prop :=
  ∀ (c : Cfg) (r : Regs) (e : HistEntry), r.noDecisionCounter = 0 →
    (∀ j, (histRead r.hist j).position = 0 ∨ (histRead r.hist j).reversePowerDb = 0 ∨ (histRead r.hist j).position = e.position) →
    let after := fun n => (fun q => decideSample c q e)^[n] r
    (∀ n, voteSum c (after (n + 1)).hist (after (n + 1)).activeIndex = 15)
      ∧ (∀ n, n ≤ c.noDecisionCap.toNat → (after n).noDecisionCounter.toNat = n)
      ∧ (after (c.noDecisionCap.toNat + 1)).noDecisionCounter = 0
      ∧ (after (c.noDecisionCap.toNat + 1)).inversionCounter.toNat
          = min ((after c.noDecisionCap.toNat).inversionCounter.toNat + 1) 0xFFFF

/-! ### Slow tick, cooldown, latches -/

/-- R222 to R225, R227: `SLOWSVC` on the state record, its idle count, hot position, resets, cooldown target and communication latch,
and its frame. -/
def Obligations.SlowServiceWritesWhatItsRuleSays : Prop :=
  ∀ (c : Cfg) (i : Inputs) (r : Regs),
    let t := slowsvcRegs c i r
    let old := r.timeOffCounter.toNat
    let new := t.timeOffCounter.toNat
    let start := c.cooldownStartThreshold.toNat
    new = (if old < c.timeOffCeiling.toNat then old + 1 else old)
      ∧ t.afcHotPosition = (if old < start ∧ start ≤ new then r.currentPosition else r.afcHotPosition)
      ∧ (start ≤ new → t.fastAfcDone = false ∧ t.pulsesOnThisRun = 0 ∧ t.inversionCounter = 0)
      ∧ (new < start → t.fastAfcDone = r.fastAfcDone ∧ t.pulsesOnThisRun = r.pulsesOnThisRun
          ∧ t.inversionCounter = r.inversionCounter)
      ∧ (start ≤ new → r.mode = 3 →
          t.targetPosition = blend c.cooldownFracBits t.afcHotPosition r.homePosition
            (coolRead c (BitVec.ofNat 8 (min (new / 2 ^ c.cooldownShift) 255))))
      ∧ (¬ (start ≤ new ∧ r.mode = 3) → t.targetPosition = r.targetPosition)
      ∧ t.faultResetPrev = i.faultResetIn
      ∧ t.commFault = (i.commFaultIn || (r.commFault && !(i.faultResetIn && !r.faultResetPrev)))
      ∧ t = { r with
          timeOffCounter := t.timeOffCounter, afcHotPosition := t.afcHotPosition, fastAfcDone := t.fastAfcDone
          pulsesOnThisRun := t.pulsesOnThisRun, inversionCounter := t.inversionCounter, targetPosition := t.targetPosition
          faultResetPrev := t.faultResetPrev, commFault := t.commFault }

/-- R226: the blend is the truncated scaled distance on hot's side of home; it lies between home and hot, its ends are exact, and its
distance from home never decreases with the multiplier. -/
def Obligations.BlendStaysBetweenHomeAndHot : Prop :=
  ∀ (frac : Nat) (hot home m m' : U16), m.toNat ≤ 2 ^ frac → m' ≤ m →
    (home ≤ hot → (blend frac hot home m).toNat = home.toNat + (hot.toNat - home.toNat) * m.toNat / 2 ^ frac
        ∧ blend frac hot home m ≤ hot)
      ∧ (hot < home → (blend frac hot home m).toNat + (home.toNat - hot.toNat) * m.toNat / 2 ^ frac = home.toNat
        ∧ hot ≤ blend frac hot home m)
      ∧ (m.toNat = 2 ^ frac → blend frac hot home m = hot)
      ∧ (m = 0 → blend frac hot home m = home)
      ∧ absdiff (blend frac hot home m') home ≤ absdiff (blend frac hot home m) home

/-- R229: along the idle count the multiplier is constant in a bucket and strictly smaller in the next until it is 0, the target's
distance from home never grows, and at the ceiling the target is home; a serviced tick in `RunAfc` writes that target. -/
def Obligations.CooldownDecaysToHome : Prop :=
  ∀ (c : Cfg) (hot home : U16) (x y : U32), x ≤ y → y ≤ c.timeOffCeiling →
    let multiplier := fun idle : U32 => (coolRead c (coolIndex c idle)).toNat
    let target := fun idle : U32 => blend c.cooldownFracBits hot home (coolRead c (coolIndex c idle))
    absdiff (target y) home ≤ absdiff (target x) home
      ∧ (x.toNat / 2 ^ c.cooldownShift = y.toNat / 2 ^ c.cooldownShift → multiplier x = multiplier y)
      ∧ (x.toNat / 2 ^ c.cooldownShift + 1 = y.toNat / 2 ^ c.cooldownShift → multiplier x = 0 ∨ multiplier y < multiplier x)
      ∧ target c.timeOffCeiling = home
      ∧ ∀ s : State, s.cfg = c → s.regs.mode = 3 → s.regs.sampleComplete = false → s.regs.slowTickFlag = true →
          s.regs.homePosition = home → s.regs.afcHotPosition = hot → c.cooldownStartThreshold ≤ s.regs.timeOffCounter →
          ∃ t, exec .loop s = .next t ∧ t.regs.targetPosition = target t.regs.timeOffCounter

/-- R227: the communication latch and the remembered level change only when a slow tick is served, and as the rule says. -/
def Obligations.CommFaultIsSetByLevelAndClearedByEdge : Prop :=
  ∀ (i : Instr) (s : State), i.hasTraceWord = true → isRestart i = false → ∃ t, exec i s = .next t ∧
    if i = .loop ∧ 1 ≤ s.regs.mode.toNat ∧ s.regs.mode.toNat ≤ 4 ∧ s.regs.slowTickFlag = true then
      t.regs.faultResetPrev = s.inp.faultResetIn
        ∧ t.regs.commFault
          = (s.inp.commFaultIn || (s.regs.commFault && !(s.inp.faultResetIn && !s.regs.faultResetPrev)))
    else t.regs.faultResetPrev = s.regs.faultResetPrev ∧ t.regs.commFault = s.regs.commFault

/-- R222, R150: idle time is cleared by a taken `CAPTURE` alone, counted by a served slow tick alone, and saturates at the ceiling. -/
def Obligations.IdleTimeCountsServedSlowTicks : Prop :=
  ∀ (i : Instr) (s : State), i.hasTraceWord = true → isRestart i = false → ∃ t, exec i s = .next t ∧
    ((∃ a b c d, i = .capture a b c d) → s.regs.mode ≠ 0 → t.regs.timeOffCounter = 0)
      ∧ (i = .loop → 1 ≤ s.regs.mode.toNat → s.regs.mode.toNat ≤ 4 → s.regs.slowTickFlag = true →
          t.regs.timeOffCounter.toNat =
            if s.regs.timeOffCounter.toNat < s.cfg.timeOffCeiling.toNat then s.regs.timeOffCounter.toNat + 1
            else s.regs.timeOffCounter.toNat)
      ∧ (¬ (∃ a b c d, i = .capture a b c d) →
          ¬ (i = .loop ∧ 1 ≤ s.regs.mode.toNat ∧ s.regs.mode.toNat ≤ 4 ∧ s.regs.slowTickFlag = true) →
          t.regs.timeOffCounter = s.regs.timeOffCounter)

/-- R36, R177, R223: the fast-mode latch is set only by a `LOOP` that decides a sample in `RunAfc`, and cleared only by a restart or by
a served slow tick at or above the cooldown threshold. -/
def Obligations.FastLatchChangesOnlyByDecisionOrCooldown : Prop :=
  ∀ (i : Instr) (s : State), i.hasTraceWord = true → ∃ t, exec i s = .next t ∧
    (s.regs.fastAfcDone = false → t.regs.fastAfcDone = true →
        i = .loop ∧ s.regs.mode = 3 ∧ s.regs.sampleComplete = true ∧ s.cfg.fastPulseFloor < s.regs.pulsesOnThisRun)
      ∧ (s.regs.fastAfcDone = true → t.regs.fastAfcDone = false →
          isRestart i = true ∨ (i = .loop ∧ s.regs.slowTickFlag = true ∧ s.cfg.cooldownStartThreshold ≤ t.regs.timeOffCounter))

/-- R221, R326: the watchdog is kicked exactly by a `LOOP` in modes 1 to 4 that serves a slow tick; the pulse stands in `out` (log 8). -/
def Obligations.WatchdogIsKickedByServedSlowTicks : Prop :=
  ∀ (i : Instr) (s : State), i.hasTraceWord = true → ∃ t, exec i s = .next t ∧
    (t.out.wdtKick = true ↔
      i = .loop ∧ 1 ≤ s.regs.mode.toNat ∧ s.regs.mode.toNat ≤ 4 ∧ s.regs.slowTickFlag = true)

/-- R270, R271, R274, R275: which operation reports which fault class, the report standing in `out` (log 8, log 9): the sentinel in a
taken `CAPTURE`, a `LOOP` that finds an undefined mode, `TRAP`; nothing else reports one. -/
def Obligations.FaultClassesAreReportedWhereTheyOccur : Prop :=
  ∀ (i : Instr) (s : State), i.hasTraceWord = true → ∃ t, exec i s = .next t ∧
    (t.out.raised = some .catastrophic ↔ i = .trap)
      ∧ (t.out.raised = some .unreachableState ↔ i = .loop ∧ 5 ≤ s.regs.mode.toNat)
      ∧ (t.out.raised = some .sensor ↔ s.regs.mode ≠ 0 ∧ ∃ ri re fi fe, i = .capture ri re fi fe
          ∧ (re = s.cfg.extAdcSentinel ∨ fe = s.cfg.extAdcSentinel))
      ∧ t.out.raised ≠ some .communication ∧ t.out.raised ≠ some .configuration

/-! ### Commands -/

/-- R251. -/
def Obligations.SetHomeStoresTheHomeAndClearsTheLatch : Prop :=
  ∀ (s : State) (v d1 d2 d3 : U16), s.regs.mode ≠ 0 → ∃ t, exec (.cmdSetHome v d1 d2 d3) s = .next t
    ∧ OnlyRegs s t { s.regs with homePosition := v, notConfigured := false }

/-- R252, R253: the two selections write the request bit and nothing else. -/
def Obligations.SelectionsWriteTheManualRequestAlone : Prop :=
  ∀ (s : State) (d0 d1 d2 d3 : U16), s.regs.mode ≠ 0 →
    (∃ t, exec (.cmdSelectAfc d0 d1 d2 d3) s = .next t ∧ OnlyRegs s t { s.regs with manualModeReq := false })
      ∧ (∃ t, exec (.cmdSelectManual d0 d1 d2 d3) s = .next t ∧ OnlyRegs s t { s.regs with manualModeReq := true })

/-- R254. -/
def Obligations.SetManualStoresTheTargetUnclamped : Prop :=
  ∀ (s : State) (v d1 d2 d3 : U16), s.regs.mode ≠ 0 → ∃ t, exec (.cmdSetManual v d1 d2 d3) s = .next t
    ∧ OnlyRegs s t { s.regs with manualTargetPosition := v }

/-- R255: the sum is formed without wrap and clamped into the bounds, the lower bound first. -/
def Obligations.ManualUpAddsAndSaturates : Prop :=
  ∀ (s : State) (n d1 d2 d3 : U16), s.regs.mode ≠ 0 → ∃ (t : State) (v : U16), exec (.cmdManualUp n d1 d2 d3) s = .next t
    ∧ v.toNat = (if s.regs.manualTargetPosition.toNat + n.toNat < s.regs.minPosition.toNat then s.regs.minPosition.toNat
        else min (s.regs.manualTargetPosition.toNat + n.toNat) s.regs.maxPosition.toNat)
    ∧ OnlyRegs s t { s.regs with manualTargetPosition := v }

/-- R256: the difference is formed as an integer and clamped into the bounds, the lower bound first. -/
def Obligations.ManualDownSubtractsAndSaturates : Prop :=
  ∀ (s : State) (n d1 d2 d3 : U16), s.regs.mode ≠ 0 → ∃ (t : State) (v : U16), exec (.cmdManualDown n d1 d2 d3) s = .next t
    ∧ v.toNat = (if s.regs.manualTargetPosition.toNat < s.regs.minPosition.toNat + n.toNat then s.regs.minPosition.toNat
        else min (s.regs.manualTargetPosition.toNat - n.toNat) s.regs.maxPosition.toNat)
    ∧ OnlyRegs s t { s.regs with manualTargetPosition := v }

/-- R257: an unknown command changes nothing of `S`, the communication latch included. -/
def Obligations.UnknownCommandsAreIgnored : Prop :=
  ∀ (s : State) (index d0 d1 d2 d3 : U16), ∃ t, exec (.cmdUnknown index d0 d1 d2 d3) s = .next t ∧ OnlyRegs s t s.regs

/-- R95: the index of a command record selects the operation, in a trace word as on the command port; every index but 1 to 6 selects
`CMD.UNKNOWN`. -/
def Obligations.CommandIndexSelectsTheOperation : Prop :=
  ∀ (c : CmdRecord) (rest : List Byte),
    decode (encodeCmd c ++ rest) = .ok (decodeCmd c, rest)
      ∧ (c.index = 1 → decodeCmd c = .cmdSetHome c.data0 c.data1 c.data2 c.data3)
      ∧ (c.index = 2 → decodeCmd c = .cmdSelectAfc c.data0 c.data1 c.data2 c.data3)
      ∧ (c.index = 3 → decodeCmd c = .cmdSelectManual c.data0 c.data1 c.data2 c.data3)
      ∧ (c.index = 4 → decodeCmd c = .cmdSetManual c.data0 c.data1 c.data2 c.data3)
      ∧ (c.index = 5 → decodeCmd c = .cmdManualUp c.data0 c.data1 c.data2 c.data3)
      ∧ (c.index = 6 → decodeCmd c = .cmdManualDown c.data0 c.data1 c.data2 c.data3)
      ∧ (c.index = 0 ∨ 6 < c.index.toNat → decodeCmd c = .cmdUnknown c.index c.data0 c.data1 c.data2 c.data3)

/-! ### Derived bits -/

/-- R46: every bit of `STATUS`. -/
def Obligations.StatusBitsShowTheStoredFields : Prop :=
  ∀ (c : Cfg) (r : Regs),
    let w := statusWord c r
    w.getLsbD 0 = (r.commFault || (r.mode = 1 || r.mode = 2)) ∧ w.getLsbD 1 = r.commFault ∧ w.getLsbD 2 = r.notConfigured
      ∧ w.getLsbD 3 = (r.mode = 1 || r.mode = 2) ∧ w.getLsbD 4 = r.fastAfcDone
      ∧ w.getLsbD 5 = decide (c.lowPowerThreshold ≤ r.timeStepsStopped) ∧ w.getLsbD 6 = r.manualModeReq
      ∧ w.getLsbD 7 = r.sampleComplete ∧ w.extractLsb' 8 3 = r.mode ∧ w.getLsbD 11 = r.slowTickFlag
      ∧ w.extractLsb' 12 4 = 0

/-! ### Whole-machine rules -/

/-- R72: which fields each agent's operations may write. -/
def Obligations.AgentsWriteOnlyTheirOwnFields : Prop :=
  ∀ (i : Instr) (s : State), i.hasTraceWord = true → isRestart i = false → ∃ t, exec i s = .next t ∧
    let a := s.regs
    let b := t.regs
    ((∃ x y z w, i = .capture x y z w) →
        b = { a with
          positionAtTrigger := b.positionAtTrigger, revRawInt := b.revRawInt, revRawExt := b.revRawExt
          fwdRawInt := b.fwdRawInt, fwdRawExt := b.fwdRawExt, sampleComplete := b.sampleComplete
          pulsesOnThisRun := b.pulsesOnThisRun, timeOffCounter := b.timeOffCounter })
      ∧ (i = .step →
        b = { a with
          currentPosition := b.currentPosition, timeStepsStopped := b.timeStepsStopped, targetPosition := b.targetPosition })
      ∧ (i = .loop →
        b.positionAtTrigger = a.positionAtTrigger ∧ b.revRawInt = a.revRawInt ∧ b.revRawExt = a.revRawExt
          ∧ b.fwdRawInt = a.fwdRawInt ∧ b.fwdRawExt = a.fwdRawExt ∧ b.currentPosition = a.currentPosition
          ∧ b.timeStepsStopped = a.timeStepsStopped ∧ b.notConfigured = a.notConfigured
          ∧ b.manualModeReq = a.manualModeReq)
      ∧ (requestRank i = 5 →
        b = { a with
          homePosition := b.homePosition, manualTargetPosition := b.manualTargetPosition
          notConfigured := b.notConfigured, manualModeReq := b.manualModeReq })
      ∧ (i = .slowtick → b = { a with slowTickFlag := b.slowTickFlag })

/-- R66, R129: no operation changes the configuration and its tables, none but `SETIN` the level inputs, and none the rest of the
trace. -/
def Obligations.NoOperationChangesTheConfiguration : Prop :=
  ∀ (i : Instr) (s : State), ∃ t, exec i s = .next t ∧ t.cfg = s.cfg ∧ t.trace = s.trace
    ∧ ((∀ b c r, i ≠ .setin b c r) → t.inp = s.inp)

/-- R29: the internal-conversion readings are read by no rule: they influence no other field, in any operation. -/
def Obligations.InternalReadingsInfluenceNothing : Prop :=
  ∀ (i : Instr) (s t : State), EqualButInternal s t →
    ∃ s' t', exec i s = .next s' ∧ exec i t = .next t' ∧ EqualButInternal s' t'

/-- The invariant `Inv` is kept by every step, from every state that has it. -/
def Obligations.EveryStepKeepsTheInvariant : Prop :=
  ∀ s t : State, Inv s → step s = .next t → Inv t

/-- The state after reset has the invariant; it also has the reset record of R48. -/
def Obligations.ResetHasTheInvariant : Prop :=
  Inv State.reset ∧ IsResetRecord State.reset.cfg State.reset.regs

/-- R130: switching to manual mode and back without new manual-target commands returns control with the last automatic target. -/
def Obligations.ManualRoundTripKeepsTheTarget : Prop :=
  ∀ s : State, s.regs.mode = 3 → s.regs.manualModeReq = true →
    ∃ t, exec .loop s = .next t ∧ t.regs.mode = 4 ∧ t.regs.manualTargetPosition = t.regs.targetPosition ∧
      ∀ (ops : List Instr) (d0 d1 d2 d3 : U16), (∀ i ∈ ops, keepsManualTarget i = true) →
        ∃ v, execAll (ops ++ [.cmdSelectAfc d0 d1 d2 d3, .loop]) t = .next v ∧ v.regs.mode = 3
          ∧ v.regs.targetPosition = t.regs.targetPosition

/-- R124 (b), R324, with the motor's position that the exact-equality test of R124 and R128 makes them need (log 17): once the bounds are
narrowed, a home below the range that the motor stands above, or a home above the range that the motor stands below, holds the core in
`AutoHome`, not ready, whatever happens but a new home or a restart. The motor may itself stand outside the range. -/
def Obligations.HomeOutsideTheRangeHoldsTheCoreInAutoHome : Prop :=
  ∀ (s : State) (ops : List Instr), s.regs.mode = 2 →
    s.regs.minPosition = s.cfg.posOpMin → s.regs.maxPosition = s.cfg.posOpMax →
    (s.regs.homePosition < s.cfg.posOpMin ∧ s.regs.homePosition < s.regs.currentPosition
      ∨ s.cfg.posOpMax < s.regs.homePosition ∧ s.regs.currentPosition < s.regs.homePosition) →
    (∀ i ∈ ops, keepsHome i = true) →
    ∃ t, execAll ops s = .next t ∧ t.regs.mode = 2 ∧ notReady t.regs = true

/-- The sentence of R124 (b) and R324 taken without the motor's position: a home outside the operational range never lets `AutoHome` end.
The pseudocode of R124 and the transition relation of R128 refute it (log 17): a home below the range that the motor stands on, at the
start or on its way into the range, ends the homing. -/
def Obligations.HomeOutsideTheRangeNeverEndsHoming : Prop :=
  ∀ s t : State, Inv s → s.regs.mode = 2 →
    (s.regs.homePosition < s.cfg.posOpMin ∨ s.cfg.posOpMax < s.regs.homePosition) →
    exec .loop s = .next t → t.regs.mode = 2

/-! ### Decoding, encoding, stepping -/

/-- A step runs the operation that the trace presents, on the state that has consumed its word (log 4). -/
def Obligations.StepRunsTheDecodedOperation : Prop :=
  ∀ (s : State) (i : Instr) (rest : List Byte), i.wellFormed = true → decode s.trace = .ok (i, rest) →
    step s = exec i { s with trace := rest }

/-- R104: a reserved event code, a `SETIN` word with one of `levels[7:3]` set, and a trace that ends in the middle of a word are refused,
each by name; so is the end of the trace (log 4). The refusal comes when the word is reached (log 5). -/
def Obligations.IllegalTraceWordsAreRefused : Prop :=
  ∀ (s : State) (rest : List Byte),
    (∀ code : Byte, (6 ≤ code.toNat ∧ code.toNat ≤ 13) ∨ 16 ≤ code.toNat → s.trace = code :: rest →
        step s = .refused (.reservedEvent code))
      ∧ (∀ levels : Byte, 8 ≤ levels.toNat → s.trace = 0x05#8 :: levels :: rest → step s = .refused (.reservedLevels levels))
      ∧ (s.trace = 0x01#8 :: rest → rest.length < 8 → step s = .refused (.truncatedWord 0x01#8))
      ∧ (s.trace = 0x04#8 :: rest → rest.length < 10 → step s = .refused (.truncatedWord 0x04#8))
      ∧ (s.trace = [0x05#8] → step s = .refused (.truncatedWord 0x05#8))
      ∧ (s.trace = [] → step s = .refused .traceEnd)

/-- Decoding an encoded operation gives it back, every operand at every value; a trace word may be followed by anything. -/
def Obligations.EncodedOperationsDecodeBack : Prop :=
  ∀ (i : Instr) (rest : List Byte), i.wellFormed = true →
    decodeCode (encode i) = some i ∧ (i.hasTraceWord = true → decode (encodeWord i ++ rest) = .ok (i, rest))

/-- What the decoder accepts is exactly an encoded, well-formed operation followed by what it did not read; so is every mode value. -/
def Obligations.DecodedBytesEncodeBack : Prop :=
  (∀ (b rest : List Byte) (i : Instr), decode b = .ok (i, rest) →
      b = encodeWord i ++ rest ∧ i.wellFormed = true ∧ i.hasTraceWord = true)
    ∧ ∀ m : ModeBits, encode (decodeMode m) = .mode m ∧ (decodeMode m).wellFormed = true

/-- R103, R105: the two example words of R103 and one word of each other format, written out, decode to their operations. -/
def Obligations.WrittenOutWordsDecode : Prop :=
  decode [0x01#8, 0x01#8, 0x23#8, 0x08#8, 0x00#8, 0x04#8, 0x56#8, 0x0C#8, 0x00#8] = .ok (.capture 0x0123 0x0800 0x0456 0x0C00, [])
    ∧ decode [0x04#8, 0x00#8, 0x01#8, 0x01#8, 0xF4#8, 0#8, 0#8, 0#8, 0#8, 0#8, 0#8] = .ok (.cmdSetHome 500 0 0 0, [])
    ∧ decode [0x05#8, 0x01#8] = .ok (.setin true false false, [])
    ∧ decode [0x0F#8] = .ok (.reset, [])

/-- R12, R71: the run of a trace is the sequence of its operations, and it ends in a next state with the whole trace consumed. -/
def Obligations.RunOfATraceIsTheSequenceOfItsOperations : Prop :=
  ∀ (s : State) (is : List Instr), (∀ i ∈ is, i.wellFormed = true ∧ i.hasTraceWord = true) →
    ∃ t : State, Host.Core.run Sys2Proof.core is.length (s.setTrace (encodeTrace is)) = .next t
      ∧ execAll is (s.setTrace []) = .next t ∧ t.trace = []
end

