-- ==== Sys2Proof/Laws/Config.lean ====
section
/-! SUPPORT. What the well-formedness of a configuration (00_scope.md R7) gives, each part as arithmetic. -/

namespace Sys2Proof.Config.Cfg

variable (c : Cfg)

/-- The parts of `wellFormed`, all at once; the lemmas below name each. -/
theorem wf_parts :
    c.rangesOk ∧ c.positionsOk ∧ c.readingsOk ∧ c.dbRangeOk ∧ c.thresholdsOk ∧ c.pulsesOk ∧ c.deltasOk ∧ c.idleOk ∧ c.coolOk
      ∧ c.lowPowerOk ∧ c.capOk := by
  have h := c.wf
  simp only [CfgData.wellFormed, Bool.and_eq_true] at h
  tauto

theorem dbShift_le : c.dbShift ≤ 16 := by
  have h := c.wf_parts.1
  simp [CfgData.rangesOk] at h
  omega

theorem fracBits_range : 1 ≤ c.cooldownFracBits ∧ c.cooldownFracBits ≤ 16 := by
  have h := c.wf_parts.1
  simp [CfgData.rangesOk] at h
  omega

theorem cooldownShift_le : c.cooldownShift ≤ 31 := by
  have h := c.wf_parts.1
  simp [CfgData.rangesOk] at h
  omega

/-- R7 (1). -/
theorem positions_ordered :
    c.posOpMin.toNat ≤ c.posOpMax.toNat ∧ c.posOpMax.toNat ≤ c.posFullMax.toNat := by
  have h := c.wf_parts.2.1
  simpa [CfgData.positionsOk, BitVec.le_def] using h

/-- R7 (2). -/
theorem readings_ordered : c.minReading.toNat ≤ c.maxReading.toNat := by
  have h := c.wf_parts.2.2.1
  simpa [CfgData.readingsOk, BitVec.le_def] using h

/-- R7 (3). -/
theorem db_range :
    ((c.maxReading.toNat - c.minReading.toNat) * c.dbMul.toNat) >>> c.dbShift ≤ 0xFFFF := by
  have h := c.wf_parts.2.2.2.1
  simpa [CfgData.dbRangeOk] using h

/-- R7 (4). -/
theorem minChanges_pos : 1 ≤ c.minPositionChange.toNat ∧ 1 ≤ c.minPowerChange.toNat := by
  have h := c.wf_parts.2.2.2.2.1
  simp only [CfgData.thresholdsOk, Bool.and_eq_true, decide_eq_true_eq] at h
  exact h

/-- R7 (5). -/
theorem pulses_ordered :
    c.fastPulseFloor.toNat ≤ c.fastPulseCeiling.toNat ∧ c.fastPulseCeiling.toNat < 0xFFFF := by
  have h := c.wf_parts.2.2.2.2.2.1
  simpa [CfgData.pulsesOk, BitVec.le_def] using h

/-- R7 (6). -/
theorem deltas_ordered : c.stepDeltaSlow.toNat ≤ c.stepDeltaFast.toNat := by
  have h := c.wf_parts.2.2.2.2.2.2.1
  simpa [CfgData.deltasOk, BitVec.le_def] using h

/-- R7 (7). -/
theorem idle_ordered :
    1 ≤ c.cooldownStartThreshold.toNat ∧ c.cooldownStartThreshold.toNat < c.timeOffCeiling.toNat
      ∧ c.timeOffCeiling.toNat >>> c.cooldownShift ≤ 255 := by
  have h := c.wf_parts.2.2.2.2.2.2.2.1
  simp only [CfgData.idleOk, Bool.and_eq_true, decide_eq_true_eq] at h
  tauto

/-- An entry of the curve is its list's. -/
theorem coolAt_eq (i : Nat) (h : i ≤ 255) :
    c.coolAt i = (c.cool.entries[i]'(by rw [c.cool.length_eq]; omega)).toNat := by
  have hm : min i 255 = i := by omega
  simp [CfgData.coolAt, Table.get, hm]

/-- R7 (8), the bound. -/
theorem cool_le (i : Nat) (h : i ≤ 255) : c.coolAt i ≤ 2 ^ c.cooldownFracBits := by
  have hw := c.wf_parts.2.2.2.2.2.2.2.2.1
  simp only [CfgData.coolOk, Bool.and_eq_true, List.all_eq_true, decide_eq_true_eq] at hw
  rw [coolAt_eq c i h]
  exact hw.1.1 _ (List.getElem_mem _)

/-- R7 (8), one entry to the next. -/
theorem cool_step (i : Nat) (h : i < 255) :
    c.coolAt (i + 1) ≤ c.coolAt i ∧ (c.coolAt i = 0 ∨ c.coolAt (i + 1) < c.coolAt i) := by
  have hw := c.wf_parts.2.2.2.2.2.2.2.2.1
  simp only [CfgData.coolOk, Bool.and_eq_true, List.all_eq_true, decide_eq_true_eq, Bool.or_eq_true, beq_iff_eq] at hw
  have hl := c.cool.length_eq
  have hz : i < (c.cool.entries.zip c.cool.entries.tail).length := by simp [hl]; omega
  have hm := hw.1.2 _ (List.getElem_mem hz)
  rw [coolAt_eq c i (by omega), coolAt_eq c (i + 1) (by omega)]
  simpa [List.getElem_zip, List.getElem_tail] using hm

/-- R7 (8), the end of the curve. -/
theorem cool_end : c.coolAt (c.timeOffCeiling.toNat >>> c.cooldownShift) = 0 := by
  have hw := c.wf_parts.2.2.2.2.2.2.2.2.1
  simp only [CfgData.coolOk, Bool.and_eq_true, beq_iff_eq] at hw
  exact hw.2

/-- R7 (9). -/
theorem lowPower_pos : 1 ≤ c.lowPowerThreshold.toNat := by
  have h := c.wf_parts.2.2.2.2.2.2.2.2.2.1
  simpa [CfgData.lowPowerOk] using h

/-- R7 (10). -/
theorem cap_pos : 1 ≤ c.noDecisionCap.toNat := by
  have h := c.wf_parts.2.2.2.2.2.2.2.2.2.2
  simpa [CfgData.capOk] using h

/-- The curve is non-increasing over any distance. -/
theorem cool_antitone (i j : Nat) (hij : i ≤ j) (hj : j ≤ 255) : c.coolAt j ≤ c.coolAt i := by
  induction j, hij using Nat.le_induction with
  | base => exact le_refl _
  | succ k hk ih => exact (c.cool_step k (by omega)).1.trans (ih (by omega))

/-- The step sees the curve through the capped index (20_memory.md R65). -/
theorem coolRead_toNat (i : BitVec 8) : (Machine.coolRead c i).toNat = c.coolAt i.toNat := by
  have : min i.toNat 255 = i.toNat := by omega
  simp [Machine.coolRead, CfgData.coolAt, this]

end Sys2Proof.Config.Cfg
end

