-- ==== Sys2Proof/Laws/State.lean ====
section
/-! SUPPORT. One lemma per field per update of the state, each true by unfolding. -/

namespace Sys2Proof.Machine

@[simp] theorem quiet_regs (s : State) : s.quiet.regs = s.regs := rfl
@[simp] theorem quiet_inp (s : State) : s.quiet.inp = s.inp := rfl
@[simp] theorem quiet_cfg (s : State) : s.quiet.cfg = s.cfg := rfl
@[simp] theorem quiet_out (s : State) : s.quiet.out = Pulses.quiet := rfl
@[simp] theorem quiet_trace (s : State) : s.quiet.trace = s.trace := rfl

@[simp] theorem mapRegs_regs (s : State) (f : Regs → Regs) : (s.mapRegs f).regs = f s.regs := rfl
@[simp] theorem mapRegs_inp (s : State) (f : Regs → Regs) : (s.mapRegs f).inp = s.inp := rfl
@[simp] theorem mapRegs_cfg (s : State) (f : Regs → Regs) : (s.mapRegs f).cfg = s.cfg := rfl
@[simp] theorem mapRegs_out (s : State) (f : Regs → Regs) : (s.mapRegs f).out = s.out := rfl
@[simp] theorem mapRegs_trace (s : State) (f : Regs → Regs) : (s.mapRegs f).trace = s.trace := rfl

@[simp] theorem raise_regs (s : State) (f : FaultClass) : (s.raise f).regs = s.regs := rfl
@[simp] theorem raise_inp (s : State) (f : FaultClass) : (s.raise f).inp = s.inp := rfl
@[simp] theorem raise_cfg (s : State) (f : FaultClass) : (s.raise f).cfg = s.cfg := rfl
@[simp] theorem raise_raised (s : State) (f : FaultClass) : (s.raise f).out.raised = some f := rfl
@[simp] theorem raise_wdtKick (s : State) (f : FaultClass) : (s.raise f).out.wdtKick = s.out.wdtKick := rfl
@[simp] theorem raise_trace (s : State) (f : FaultClass) : (s.raise f).trace = s.trace := rfl

@[simp] theorem kick_regs (s : State) : s.kick.regs = s.regs := rfl
@[simp] theorem kick_inp (s : State) : s.kick.inp = s.inp := rfl
@[simp] theorem kick_cfg (s : State) : s.kick.cfg = s.cfg := rfl
@[simp] theorem kick_raised (s : State) : s.kick.out.raised = s.out.raised := rfl
@[simp] theorem kick_wdtKick (s : State) : s.kick.out.wdtKick = true := rfl
@[simp] theorem kick_trace (s : State) : s.kick.trace = s.trace := rfl

@[simp] theorem setInputs_regs (s : State) (i : Inputs) : (s.setInputs i).regs = s.regs := rfl
@[simp] theorem setInputs_inp (s : State) (i : Inputs) : (s.setInputs i).inp = i := rfl
@[simp] theorem setInputs_cfg (s : State) (i : Inputs) : (s.setInputs i).cfg = s.cfg := rfl
@[simp] theorem setInputs_out (s : State) (i : Inputs) : (s.setInputs i).out = s.out := rfl
@[simp] theorem setInputs_trace (s : State) (i : Inputs) : (s.setInputs i).trace = s.trace := rfl

@[simp] theorem setTrace_regs (s : State) (b : List Byte) : (s.setTrace b).regs = s.regs := rfl
@[simp] theorem setTrace_inp (s : State) (b : List Byte) : (s.setTrace b).inp = s.inp := rfl
@[simp] theorem setTrace_cfg (s : State) (b : List Byte) : (s.setTrace b).cfg = s.cfg := rfl
@[simp] theorem setTrace_out (s : State) (b : List Byte) : (s.setTrace b).out = s.out := rfl
@[simp] theorem setTrace_trace (s : State) (b : List Byte) : (s.setTrace b).trace = b := rfl

@[simp] theorem pulses_quiet_wdtKick : Pulses.quiet.wdtKick = false := rfl
@[simp] theorem pulses_quiet_raised : Pulses.quiet.raised = none := rfl

end Sys2Proof.Machine
end

