-- ==== Sys2Proof/Laws/Ops.lean ====
section
/-! SUPPORT. One lemma per shared operation that says what it can do; proofs cite these instead of unfolding. -/

namespace Sys2Proof.Machine

open Config

/-! ### Arithmetic helpers (00_scope.md R11) -/

/-- A clamp answers one of its three arguments, and lies in the bounds when they are in order. -/
theorem clamp_cases (v lo hi : Int) :
    (v < lo ∧ clamp v lo hi = lo) ∨ (lo ≤ v ∧ hi < v ∧ clamp v lo hi = hi) ∨ (lo ≤ v ∧ v ≤ hi ∧ clamp v lo hi = v) := by
  unfold clamp
  split
  · simp_all
  · split <;> simp_all

theorem narrow16_toNat (v : Int) (h0 : 0 ≤ v) (h1 : v ≤ 0xFFFF) : ((narrow16 v).toNat : Int) = v := by
  have : v.toNat < 65536 := by omega
  simp only [narrow16, BitVec.toNat_ofNat]
  rw [Nat.mod_eq_of_lt (by omega)]
  omega

/-- The clamp into stored bounds loses nothing: its value is the mathematical clamp. -/
theorem clamp16_toNat (v : Int) (lo hi : U16) : ((clamp16 v lo hi).toNat : Int) = clamp v lo.toNat hi.toNat := by
  have h1 := lo.isLt
  have h2 := hi.isLt
  unfold clamp16
  rcases clamp_cases v lo.toNat hi.toNat with ⟨_, h⟩ | ⟨_, _, h⟩ | ⟨_, _, h⟩ <;> rw [h] <;> apply narrow16_toNat <;> omega

/-- `sat16` is the clamp into `0 .. 0xFFFF`. -/
theorem sat16_toNat (v : Int) : ((sat16 v).toNat : Int) = clamp v 0 0xFFFF := by
  unfold sat16 clamp
  split
  · rfl
  · split
    · rfl
    · exact narrow16_toNat v (by omega) (by omega)

theorem absdiff_eq (a b : U16) : (absdiff a b : Int) = |(a.toNat : Int) - b.toNat| := by
  unfold absdiff
  split
  · rename_i h
    rw [BitVec.le_def] at h
    rw [abs_of_nonneg (by omega)]
    omega
  · rename_i h
    rw [BitVec.le_def] at h
    rw [abs_of_neg (by omega)]
    omega

theorem absdiff_self (a : U16) : absdiff a a = 0 := by simp [absdiff]

/-- A saturating increment never wraps. -/
theorem incSat_toNat {n : Nat} (v ceil : BitVec n) :
    (incSat v ceil).toNat = if v.toNat < ceil.toNat then v.toNat + 1 else v.toNat := by
  unfold incSat
  have hc := ceil.isLt
  by_cases h : v < ceil
  · rw [if_pos h, if_pos (by simpa [BitVec.lt_def] using h)]
    rw [BitVec.lt_def] at h
    have h1 : (1#n).toNat = 1 := by
      have : 1 < 2 ^ n ∨ 2 ^ n ≤ 1 := by omega
      rcases this with h' | h'
      · simp [Nat.mod_eq_of_lt h']
      · omega
    rw [BitVec.toNat_add]
    change (v.toNat + (1#n).toNat) % 2 ^ n = _
    rw [h1, Nat.mod_eq_of_lt (by omega)]
  · rw [if_neg h, if_neg (by simpa [BitVec.lt_def] using h)]

theorem incSat_le {n : Nat} (v ceil : BitVec n) (h : v ≤ ceil) : incSat v ceil ≤ ceil := by
  rw [BitVec.le_def] at *
  rw [incSat_toNat]
  split <;> omega

/-! ### The history ring (20_memory.md R61) -/

@[simp] theorem histRead_histWrite_same (h : Vector HistEntry 16) (i : BitVec 4) (e : HistEntry) :
    histRead (histWrite h i e) i = e := by
  simp [histRead, histWrite]

theorem histRead_histWrite_other (h : Vector HistEntry 16) (i j : BitVec 4) (e : HistEntry) (hij : j ≠ i) :
    histRead (histWrite h i e) j = histRead h j := by
  have : i.toNat ≠ j.toNat := fun hh => hij (BitVec.eq_of_toNat_eq hh.symm)
  simp [histRead, histWrite, this]

@[simp] theorem histRead_replicate (i : BitVec 4) (e : HistEntry) : histRead (Vector.replicate 16 e) i = e := by
  simp [histRead]

/-! ### The gate (60_exceptions.md R281) -/

/-- A gated operation either is ignored, in `Startup`, or has its effect. -/
theorem gated_cases (s : State) (f : State → State) :
    (s.regs.mode = 0 ∧ gated s f = s) ∨ (s.regs.mode ≠ 0 ∧ gated s f = f s) := by
  unfold gated
  by_cases h : s.regs.mode = 0#3
  · exact .inl ⟨h, if_pos h⟩
  · exact .inr ⟨h, if_neg h⟩

theorem gated_startup (s : State) (f : State → State) (h : s.regs.mode = 0) : gated s f = s := if_pos h

theorem gated_running (s : State) (f : State → State) (h : s.regs.mode ≠ 0) : gated s f = f s := if_neg h

/-- The gate reads the state record alone, so the cleared outputs do not open or close it. -/
theorem gated_quiet_running (s : State) (f : State → State) (h : s.regs.mode ≠ 0) : gated s.quiet f = f s.quiet :=
  gated_running s.quiet f h

/-! ### The decision (42_direction_decision.md R179), field by field -/

section decide
variable (c : Cfg) (r : Regs)

@[simp] theorem decideRegs_activeIndex : (decideRegs c r).activeIndex = r.activeIndex + 1 := by simp only [decideRegs]

@[simp] theorem decideRegs_hist : (decideRegs c r).hist = decideHist r := by simp only [decideRegs]

@[simp] theorem decideRegs_ties :
    (decideRegs c r).noDecisionCounter = nextTies c (decideSum c r) r.noDecisionCounter := by simp only [decideRegs]

@[simp] theorem decideRegs_inversions : (decideRegs c r).inversionCounter = decideInversions c r := by simp only [decideRegs]

@[simp] theorem decideRegs_fastAfcDone : (decideRegs c r).fastAfcDone = decideFast c r := by simp only [decideRegs]

@[simp] theorem decideRegs_target :
    (decideRegs c r).targetPosition = stepTarget r.currentPosition (stepDelta c (decideFast c r)) (decideDir c r) := by
  simp only [decideRegs]

/-- The decision writes its six fields and no other (42_direction_decision.md R179). -/
theorem decideRegs_frame :
    decideRegs c r =
      { r with
        activeIndex := (decideRegs c r).activeIndex
        hist := (decideRegs c r).hist
        noDecisionCounter := (decideRegs c r).noDecisionCounter
        inversionCounter := (decideRegs c r).inversionCounter
        fastAfcDone := (decideRegs c r).fastAfcDone
        targetPosition := (decideRegs c r).targetPosition } := by
  simp only [decideRegs]

end decide

/-! ### The restart (60_exceptions.md R284, R285) -/

@[simp] theorem restart_regs (s : State) : (restart s).regs = resetRegs s.cfg := rfl
@[simp] theorem restart_inp (s : State) : (restart s).inp = s.inp := rfl
@[simp] theorem restart_cfg (s : State) : (restart s).cfg = s.cfg := rfl
@[simp] theorem restart_out (s : State) : (restart s).out = s.out := rfl
@[simp] theorem restart_trace (s : State) : (restart s).trace = s.trace := rfl

/-- The reset state of the interface is the reset record of its configuration (10_state.md R48). -/
theorem reset_regs_eq : State.reset.regs = resetRegs State.reset.cfg := rfl

/-! ### What every operation leaves alone -/

@[simp] theorem slowsvc_cfg (s : State) : (slowsvc s).cfg = s.cfg := rfl
@[simp] theorem slowsvc_inp (s : State) : (slowsvc s).inp = s.inp := rfl
@[simp] theorem slowsvc_trace (s : State) : (slowsvc s).trace = s.trace := rfl
@[simp] theorem slowsvc_regs (s : State) : (slowsvc s).regs = slowsvcRegs s.cfg s.inp s.regs := rfl
@[simp] theorem slowsvc_wdtKick (s : State) : (slowsvc s).out.wdtKick = true := rfl

/-- `SERVICE` changes the state record and the outputs alone. -/
theorem service_frame (s : State) :
    (service s).cfg = s.cfg ∧ (service s).inp = s.inp ∧ (service s).trace = s.trace := by
  unfold service serveTick serveSample
  split <;> simp

@[simp] theorem postpulseRegs_mode (c : Cfg) (r : Regs) : (postpulseRegs c r).mode = r.mode := rfl

/-- The three ways the sample half of `SERVICE` goes (40_control_state_machine.md R121). -/
theorem serveSampleRegs_cases (c : Cfg) (r : Regs) :
    (r.sampleComplete = false ∧ serveSampleRegs c r = r)
      ∨ (r.sampleComplete = true ∧ r.mode ≠ 3 ∧ serveSampleRegs c r = postpulseRegs c { r with sampleComplete := false })
      ∨ (r.sampleComplete = true ∧ r.mode = 3
        ∧ serveSampleRegs c r = decideRegs c (postpulseRegs c { r with sampleComplete := false })) := by
  unfold serveSampleRegs
  cases hs : r.sampleComplete
  · exact .inl ⟨rfl, if_neg (by simp)⟩
  · by_cases hm : r.mode = 3#3
    · refine .inr (.inr ⟨rfl, hm, ?_⟩)
      rw [if_pos rfl]
      exact if_pos hm
    · refine .inr (.inl ⟨rfl, hm, ?_⟩)
      rw [if_pos rfl]
      exact if_neg hm

/-- The state record after the sample half of `SERVICE` keeps every field that only the other agents write (20_memory.md R72). -/
theorem serveSampleRegs_frame (c : Cfg) (r : Regs) :
    let t := serveSampleRegs c r
    t.currentPosition = r.currentPosition ∧ t.minPosition = r.minPosition ∧ t.maxPosition = r.maxPosition
      ∧ t.homePosition = r.homePosition ∧ t.timeStepsStopped = r.timeStepsStopped ∧ t.positionAtTrigger = r.positionAtTrigger
      ∧ t.revRawInt = r.revRawInt ∧ t.revRawExt = r.revRawExt ∧ t.fwdRawInt = r.fwdRawInt ∧ t.fwdRawExt = r.fwdRawExt
      ∧ t.pulsesOnThisRun = r.pulsesOnThisRun ∧ t.timeOffCounter = r.timeOffCounter ∧ t.mode = r.mode
      ∧ t.afcHotPosition = r.afcHotPosition ∧ t.manualTargetPosition = r.manualTargetPosition
      ∧ t.notConfigured = r.notConfigured ∧ t.manualModeReq = r.manualModeReq ∧ t.commFault = r.commFault
      ∧ t.faultResetPrev = r.faultResetPrev ∧ t.slowTickFlag = r.slowTickFlag := by
  unfold serveSampleRegs
  split
  · dsimp only
    split <;> simp [decideRegs, postpulseRegs]
  · simp

/-- The state record after `SERVICE`: the sample half, then the slow-tick half (40_control_state_machine.md R121). -/
theorem service_regs (s : State) :
    (service s).regs =
      if s.regs.slowTickFlag then slowsvcRegs s.cfg s.inp { serveSampleRegs s.cfg s.regs with slowTickFlag := false }
      else serveSampleRegs s.cfg s.regs := by
  have h := (serveSampleRegs_frame s.cfg s.regs).2.2.2.2.2.2.2.2.2.2.2.2.2.2.2.2.2.2.2
  unfold service serveTick serveSample
  simp only [mapRegs_regs, h]
  split <;> simp

/-- `SERVICE` keeps every field that the mode bodies test and that only the other agents write. -/
theorem service_regs_frame (s : State) :
    let t := (service s).regs
    t.currentPosition = s.regs.currentPosition ∧ t.minPosition = s.regs.minPosition ∧ t.maxPosition = s.regs.maxPosition
      ∧ t.homePosition = s.regs.homePosition ∧ t.timeStepsStopped = s.regs.timeStepsStopped
      ∧ t.positionAtTrigger = s.regs.positionAtTrigger ∧ t.revRawInt = s.regs.revRawInt ∧ t.revRawExt = s.regs.revRawExt
      ∧ t.fwdRawInt = s.regs.fwdRawInt ∧ t.fwdRawExt = s.regs.fwdRawExt ∧ t.mode = s.regs.mode
      ∧ t.manualTargetPosition = s.regs.manualTargetPosition ∧ t.notConfigured = s.regs.notConfigured
      ∧ t.manualModeReq = s.regs.manualModeReq := by
  have h := serveSampleRegs_frame s.cfg s.regs
  rw [service_regs]
  split <;> simp_all [slowsvcRegs]

/-- What `SERVICE` leaves in the state record does not depend on the outputs. -/
theorem service_quiet_regs (s : State) : (service s.quiet).regs = (service s).regs := by
  rw [service_regs, service_regs]
  rfl

/-- `SERVICE` pulses the watchdog exactly when it serves a slow tick (44_cooldown_status.md R221). -/
theorem service_out (s : State) :
    (service s).out = if s.regs.slowTickFlag then { s.out with wdtKick := true } else s.out := by
  have h := (serveSampleRegs_frame s.cfg s.regs).2.2.2.2.2.2.2.2.2.2.2.2.2.2.2.2.2.2.2
  unfold service serveTick serveSample
  simp only [mapRegs_regs, h]
  split <;> rfl

/-- Which body a `LOOP` runs (40_control_state_machine.md R120): one of six, told apart by `mode`. -/
theorem loopBody_cases (s : State) :
    (s.regs.mode = 0 ∧ loopBody s = bodyStartup s) ∨ (s.regs.mode = 1 ∧ loopBody s = bodyAutoZero s)
      ∨ (s.regs.mode = 2 ∧ loopBody s = bodyAutoHome s) ∨ (s.regs.mode = 3 ∧ loopBody s = bodyRunAfc s)
      ∨ (s.regs.mode = 4 ∧ loopBody s = bodyRunManual s) ∨ (5 ≤ s.regs.mode.toNat ∧ loopBody s = bodyUndefined s) := by
  have h5 : ∀ m : ModeBits, m ≠ 0#3 → m ≠ 1#3 → m ≠ 2#3 → m ≠ 3#3 → m ≠ 4#3 → 5 ≤ m.toNat := by decide
  by_cases h0 : s.regs.mode = 0#3
  · exact .inl ⟨h0, if_pos h0⟩
  by_cases h1 : s.regs.mode = 1#3
  · exact .inr (.inl ⟨h1, by simp [loopBody, h1]⟩)
  by_cases h2 : s.regs.mode = 2#3
  · exact .inr (.inr (.inl ⟨h2, by simp [loopBody, h2]⟩))
  by_cases h3 : s.regs.mode = 3#3
  · exact .inr (.inr (.inr (.inl ⟨h3, by simp [loopBody, h3]⟩)))
  by_cases h4 : s.regs.mode = 4#3
  · exact .inr (.inr (.inr (.inr (.inl ⟨h4, by simp [loopBody, h4]⟩))))
  exact .inr (.inr (.inr (.inr (.inr ⟨h5 _ h0 h1 h2 h3 h4, by simp [loopBody, *]⟩))))

/-- Every operation is total: "it yields exactly one next state" (00_scope.md R12). -/
theorem exec_completes (i : Instr) (s : State) : ∃ t, exec i s = .next t := by
  cases i <;> exact ⟨_, rfl⟩

end Sys2Proof.Machine
end

