-- ==== Sys2Proof/Laws/PerInstr.lean ====
section
/-! SUPPORT. Statements about every operation as syntax, one lemma per constructor of `Instr`. -/

namespace Sys2Proof.Laws

/-- The encoding of an operation with a trace word has exactly the length that the table of 30_encoding.md R98 gives its event code; a
mode body is encoded by a `mode` value and has no trace word (R107). -/
def EncodedLength.Statement (i : Instr) : Prop :=
  match encode i with
  | .word bytes => i.hasTraceWord = true ∧ wordLength (bytes.headD 0#8) = some bytes.length
  | .mode _ => i.hasTraceWord = false

theorem EncodedLength.reset : EncodedLength.Statement .reset := ⟨rfl, rfl⟩

theorem EncodedLength.trap : EncodedLength.Statement .trap := ⟨rfl, rfl⟩

theorem EncodedLength.loop : EncodedLength.Statement .loop := ⟨rfl, rfl⟩

theorem EncodedLength.step : EncodedLength.Statement .step := ⟨rfl, rfl⟩

theorem EncodedLength.slowtick : EncodedLength.Statement .slowtick := ⟨rfl, rfl⟩

theorem EncodedLength.capture (a b c d : U16) : EncodedLength.Statement (.capture a b c d) := ⟨rfl, rfl⟩

theorem EncodedLength.setin (a b c : Bool) : EncodedLength.Statement (.setin a b c) := ⟨rfl, rfl⟩

theorem EncodedLength.cmdSetHome (a b c d : U16) : EncodedLength.Statement (.cmdSetHome a b c d) := ⟨rfl, rfl⟩

theorem EncodedLength.cmdSelectAfc (a b c d : U16) : EncodedLength.Statement (.cmdSelectAfc a b c d) := ⟨rfl, rfl⟩

theorem EncodedLength.cmdSelectManual (a b c d : U16) : EncodedLength.Statement (.cmdSelectManual a b c d) := ⟨rfl, rfl⟩

theorem EncodedLength.cmdSetManual (a b c d : U16) : EncodedLength.Statement (.cmdSetManual a b c d) := ⟨rfl, rfl⟩

theorem EncodedLength.cmdManualUp (a b c d : U16) : EncodedLength.Statement (.cmdManualUp a b c d) := ⟨rfl, rfl⟩

theorem EncodedLength.cmdManualDown (a b c d : U16) : EncodedLength.Statement (.cmdManualDown a b c d) := ⟨rfl, rfl⟩

theorem EncodedLength.cmdUnknown (e a b c d : U16) : EncodedLength.Statement (.cmdUnknown e a b c d) := ⟨rfl, rfl⟩

theorem EncodedLength.loopStartup : EncodedLength.Statement .loopStartup := rfl

theorem EncodedLength.loopAutoZero : EncodedLength.Statement .loopAutoZero := rfl

theorem EncodedLength.loopAutoHome : EncodedLength.Statement .loopAutoHome := rfl

theorem EncodedLength.loopRunAfc : EncodedLength.Statement .loopRunAfc := rfl

theorem EncodedLength.loopRunManual : EncodedLength.Statement .loopRunManual := rfl

theorem EncodedLength.loopUndefined (m : ModeBits) : EncodedLength.Statement (.loopUndefined m) := rfl

end Sys2Proof.Laws
end

