-- ==== Sys2Proof/Machine/Assembly.lean ====
section
/-! DEFINITION. The textual form of a trace (30_encoding.md R105) and the pseudo-operations (R106); the points of the grammar that the
spec leaves open are log 18. -/

namespace Sys2Proof.Machine

/-! ### Pseudo-operations (R106) -/

/-- An operation line of the trace assembly: an operation or a pseudo-operation. -/
inductive Pseudo where
  | op (i : Instr)
  | pulse (revInt revExt fwdInt fwdExt : U16)
  | tick
  | idle (n : Nat)
  | move (n : Nat)
  | boot
  | times (x : Pseudo) (n : Nat)
deriving DecidableEq, Repr

/-- `is` repeated `n` times. -/
def repeated (n : Nat) (is : List Instr) : List Instr := (List.replicate n is).flatten

/-- The expansion of an operation line (R106). -/
def expand : Pseudo → List Instr
  | .op i => [i]
  | .pulse ri re fi fe => [.capture ri re fi fe, .loop]
  | .tick => [.slowtick, .loop]
  | .idle n => repeated n [.slowtick, .loop]
  | .move n => repeated n [.step, .loop]
  | .boot => [.reset, .setin true false false, .loop]
  | .times x n => repeated n (expand x)

/-! ### The text (R105) -/

/-- The characters between the words of a line. -/
def isGap (c : Char) : Bool := c == ' ' || c == ',' || c == '\t' || c == '\r'

/-- The words of a line; `word` holds the word being read, last character first. -/
def wordsFrom (word : List Char) : List Char → List (List Char)
  | [] => if word.isEmpty then [] else [word.reverse]
  | c :: cs =>
    if isGap c then (if word.isEmpty then wordsFrom [] cs else word.reverse :: wordsFrom [] cs)
    else wordsFrom (c :: word) cs

/-- The words of a line up to its comment: "`;` starts a comment" (R105). -/
def lineWords (line : List Char) : List (List Char) :=
  wordsFrom [] (line.takeWhile (· != ';'))

/-- The value of a decimal digit. -/
def decDigit (c : Char) : Option Nat :=
  if '0' ≤ c ∧ c ≤ '9' then some (c.toNat - '0'.toNat) else none

/-- The value of a hexadecimal digit, of either case. -/
def hexDigit (c : Char) : Option Nat :=
  if '0' ≤ c ∧ c ≤ '9' then some (c.toNat - '0'.toNat)
  else if 'a' ≤ c ∧ c ≤ 'f' then some (c.toNat - 'a'.toNat + 10)
  else if 'A' ≤ c ∧ c ≤ 'F' then some (c.toNat - 'A'.toNat + 10)
  else none

/-- A number from its digits, most significant first. -/
def digits (base : Nat) (digit : Char → Option Nat) (acc : Nat) : List Char → Option Nat
  | [] => some acc
  | c :: cs =>
    match digit c with
    | some d => digits base digit (acc * base + d) cs
    | none => none

/-- "Numbers are decimal or `0x` hexadecimal" (R105). -/
def parseNat : List Char → Option Nat
  | [] => none
  | ['0', 'x'] => none
  | '0' :: 'x' :: cs => digits 16 hexDigit 0 cs
  | cs => digits 10 decDigit 0 cs

/-- An operand of 16 bits; a number that does not fit is refused. -/
def parseU16 (w : List Char) : Option U16 :=
  match parseNat w with
  | some n => if n < 65536 then some (BitVec.ofNat 16 n) else none
  | none => none

/-- A level of `SETIN`, "each of `b`, `c`, `r` being 0 or 1" (R105). -/
def parseBit (w : List Char) : Option Bool :=
  match parseNat w with
  | some 0 => some false
  | some 1 => some true
  | _ => none

/-- A command whose one operand is `data0`; "The assembler fills unused data words with 0" (R105). -/
def parseCmd1 (index : U16) (w : List Char) : Option Pseudo :=
  match parseU16 w with
  | some v => some (.op (decodeCmd ⟨index, v, 0, 0, 0⟩))
  | none => none

/-- Four 16-bit operands. -/
def parse4 (f : U16 → U16 → U16 → U16 → Pseudo) (a b c d : List Char) : Option Pseudo :=
  match parseU16 a, parseU16 b, parseU16 c, parseU16 d with
  | some a, some b, some c, some d => some (f a b c d)
  | _, _, _, _ => none

/-- The operands of a `CMD` line (R105). -/
def parseCmd : List (List Char) → Option Pseudo
  | [k] =>
    if k = "SELECT_AFC".toList then some (.op (decodeCmd ⟨0x0002#16, 0, 0, 0, 0⟩))
    else if k = "SELECT_MANUAL".toList then some (.op (decodeCmd ⟨0x0003#16, 0, 0, 0, 0⟩))
    else none
  | [k, v] =>
    if k = "SET_HOME".toList then parseCmd1 0x0001#16 v
    else if k = "SET_MANUAL".toList then parseCmd1 0x0004#16 v
    else if k = "MANUAL_UP".toList then parseCmd1 0x0005#16 v
    else if k = "MANUAL_DOWN".toList then parseCmd1 0x0006#16 v
    else none
  | [k, i, a, b, c, d] =>
    if k = "RAW".toList then
      match parseU16 i with
      | some index => parse4 (fun a b c d => .op (decodeCmd ⟨index, a, b, c, d⟩)) a b c d
      | none => none
    else none
  | _ => none

/-- The operands of a `SETIN` line (R105). -/
def parseSetin (b c r : List Char) : Option Pseudo :=
  match parseBit b, parseBit c, parseBit r with
  | some b, some c, some r => some (.op (.setin b c r))
  | _, _, _ => none

/-- One operation line without its repetition (R105, R106). -/
def parseOp : List (List Char) → Option Pseudo
  | [] => none
  | k :: args =>
    if k = "CMD".toList then parseCmd args
    else
      match args with
      | [] =>
        if k = "RESET".toList then some (.op .reset)
        else if k = "TRAP".toList then some (.op .trap)
        else if k = "LOOP".toList then some (.op .loop)
        else if k = "STEP".toList then some (.op .step)
        else if k = "SLOWTICK".toList then some (.op .slowtick)
        else if k = "TICK".toList then some .tick
        else if k = "BOOT".toList then some .boot
        else none
      | [n] =>
        if k = "IDLE".toList then (parseNat n).map .idle
        else if k = "MOVE".toList then (parseNat n).map .move
        else none
      | [b, c, r] => if k = "SETIN".toList then parseSetin b c r else none
      | [a, b, c, d] =>
        if k = "CAPTURE".toList then parse4 (fun a b c d => .op (.capture a b c d)) a b c d
        else if k = "PULSE".toList then parse4 .pulse a b c d
        else none
      | _ => none

/-- One line of words, with the repetition `* n` if it has one (R106). -/
def parseWords (ws : List (List Char)) : Option Pseudo :=
  match ws.reverse with
  | n :: ['*'] :: front =>
    match parseOp front.reverse, parseNat n with
    | some x, some n => some (.times x n)
    | _, _ => none
  | _ => parseOp ws

/-- The operations of one line; an empty line has none (R105: "One operation per line"). -/
def assembleLine (line : List Char) : Option (List Instr) :=
  if (lineWords line).isEmpty then some [] else (parseWords (lineWords line)).map expand

/-- The lines of a text; `line` holds the line being read, last character first. -/
def linesFrom (line : List Char) : List Char → List (List Char)
  | [] => [line.reverse]
  | c :: cs => if c == '\n' then line.reverse :: linesFrom [] cs else linesFrom (c :: line) cs

/-- The operations of some lines, `none` if one line is not an operation line. -/
def assembleLines : List (List Char) → Option (List Instr)
  | [] => some []
  | l :: ls =>
    match assembleLine l, assembleLines ls with
    | some is, some js => some (is ++ js)
    | _, _ => none

/-- The operations of a trace text (R105, R106); `encodeTrace` gives its bytes. -/
def assemble (text : String) : Option (List Instr) := assembleLines (linesFrom [] text.toList)

end Sys2Proof.Machine
end

