-- ==== Sys2Proof/Tests/Slice0.lean ====
section
/-! SUPPORT. The author's own tests: each expected value is one of 95_test_vectors.md (the vector is named) or is worked out by hand from
the rule named. The second half shows, for every statement with hypotheses, a concrete input that meets them. -/

namespace Sys2Proof.Tests

open Sys2Proof Sys2Proof.Machine Sys2Proof.Config

-- Each theorem is checked before the next is read: a queue of waiting checks would take a thread apiece.
set_option Elab.async false

/-! ### Helpers -/

/-- `RUN` of 95_test_vectors.md. -/
def run : State :=
  { State.reset with
    inp := ⟨true, false, false⟩
    regs := { State.reset.regs with
      mode := 3, currentPosition := 500, targetPosition := 500, minPosition := 100, maxPosition := 900, homePosition := 500
      notConfigured := false } }

/-- `RUN` with some stored fields overridden. -/
def runWith (f : Regs → Regs) : State := run.mapRegs f

/-- `M4` of 95_test_vectors.md section 2.9. -/
def m4 (target : U16) : State := runWith fun r => { r with mode := 4, manualModeReq := true, manualTargetPosition := target }

/-- `RUN` in a given mode. -/
def inMode (m : ModeBits) : State := runWith fun r => { r with mode := m }

/-- The operation completes and the next state satisfies the test. -/
def after (i : Instr) (s : State) (p : State → Bool) : Bool :=
  match exec i s with
  | .next t => p t
  | .fault _ => false
  | .refused _ => false

/-- The operations complete one after another and the last state satisfies the test. -/
def afterAll (is : List Instr) (s : State) (p : State → Bool) : Bool :=
  match execAll is s with
  | .next t => p t
  | .fault _ => false
  | .refused _ => false

/-- The `DECIDE` start of 95_test_vectors.md section 2.6 for a sample. -/
def decideStart (position power : U16) : Regs :=
  { run.regs with
    hist := (Vector.replicate 16 HistEntry.zero).set 1 ⟨500, 5000, 0⟩, activeIndex := 1, pulsesOnThisRun := 2
    positionAtTrigger := position, currentPosition := position, reversePowerDb := power, forwardPowerDb := 0 }

/-- Whether a configuration with a changed field is refused (00_scope.md R7). -/
def refusedCfg (c : CfgData) : Bool := !c.wellFormed

/-! ### Well-formedness: an ill-formed term for each check -/

theorem test_wf_unknown_defined_indices :
    (.cmdUnknown 1 0 0 0 0 : Instr).wellFormed = false ∧ (.cmdUnknown 6 0 0 0 0 : Instr).wellFormed = false
      ∧ (.cmdUnknown 0 0 0 0 0 : Instr).wellFormed = true ∧ (.cmdUnknown 7 0 0 0 0 : Instr).wellFormed = true := by decide

theorem test_wf_undefined_defined_modes :
    (.loopUndefined 0 : Instr).wellFormed = false ∧ (.loopUndefined 4 : Instr).wellFormed = false
      ∧ (.loopUndefined 5 : Instr).wellFormed = true := by decide

theorem test_cfg_ranges :
    refusedCfg { refCfgData with dbShift := 17 } ∧ refusedCfg { refCfgData with cooldownFracBits := 0 }
      ∧ refusedCfg { refCfgData with cooldownFracBits := 17 } ∧ refusedCfg { refCfgData with cooldownShift := 32 } := by
  decide +kernel

theorem test_cfg_positions :
    refusedCfg { refCfgData with posOpMin := 901 } ∧ refusedCfg { refCfgData with posOpMax := 1001 } := by decide +kernel

theorem test_cfg_readings : refusedCfg { refCfgData with minReading := 4096 } := by decide +kernel

theorem test_cfg_db_range : refusedCfg { refCfgData with dbMul := 33 } := by decide +kernel

theorem test_cfg_thresholds :
    refusedCfg { refCfgData with minPositionChange := 0 } ∧ refusedCfg { refCfgData with minPowerChange := 0 } := by
  decide +kernel

theorem test_cfg_pulses :
    refusedCfg { refCfgData with fastPulseFloor := 201 } ∧ refusedCfg { refCfgData with fastPulseCeiling := 0xFFFF } := by
  decide +kernel

theorem test_cfg_deltas : refusedCfg { refCfgData with stepDeltaSlow := 9 } := by decide +kernel

theorem test_cfg_idle :
    refusedCfg { refCfgData with cooldownStartThreshold := 0 } ∧ refusedCfg { refCfgData with cooldownStartThreshold := 131071 }
      ∧ refusedCfg { refCfgData with timeOffCeiling := 131072 } := by decide +kernel

/-- The reference curve with one entry replaced. -/
def coolWith (i : Nat) (w : U16) : Table 256 := .tabulate 256 fun j => if j = i then w else BitVec.ofNat 16 ((255 - j) * 32768 / 255)

theorem test_cfg_cool :
    refusedCfg { refCfgData with cool := coolWith 0 32769 } ∧ refusedCfg { refCfgData with cool := coolWith 7 31996 }
      ∧ refusedCfg { refCfgData with cool := coolWith 255 1 } ∧ (coolWith 7 31996).entries[6]? = some 31996 := by decide +kernel

theorem test_cfg_low_power : refusedCfg { refCfgData with lowPowerThreshold := 0 } := by decide +kernel

theorem test_cfg_cap : refusedCfg { refCfgData with noDecisionCap := 0 } := by decide +kernel

/-! ### Decoding: every constructor, words written out from 30_encoding.md (95_test_vectors.md section 2.1) -/

theorem test_decode_one_byte_words :
    decode [0x0F#8] = .ok (.reset, []) ∧ decode [0x0E#8] = .ok (.trap, []) ∧ decode [0x00#8] = .ok (.loop, [])
      ∧ decode [0x02#8] = .ok (.step, []) ∧ decode [0x03#8, 0x00#8] = .ok (.slowtick, [0x00#8]) := by decide

theorem test_decode_capture :
    decode [0x01#8, 0x01#8, 0x23#8, 0x08#8, 0x00#8, 0x04#8, 0x56#8, 0x0C#8, 0x00#8] = .ok (.capture 0x0123 0x0800 0x0456 0x0C00, [])
      ∧ decode [0x01#8, 0xFF#8, 0xFF#8, 0#8, 0#8, 0xFF#8, 0xFF#8, 0#8, 0x01#8] = .ok (.capture 0xFFFF 0 65535 1, []) := by decide

theorem test_decode_setin :
    decode [0x05#8, 0x00#8] = .ok (.setin false false false, []) ∧ decode [0x05#8, 0x01#8] = .ok (.setin true false false, [])
      ∧ decode [0x05#8, 0x02#8] = .ok (.setin false true false, []) ∧ decode [0x05#8, 0x04#8] = .ok (.setin false false true, [])
      ∧ decode [0x05#8, 0x07#8] = .ok (.setin true true true, []) := by decide

theorem test_decode_set_home :
    decode [0x04#8, 0#8, 0x01#8, 0x01#8, 0xF4#8, 0#8, 0#8, 0#8, 0#8, 0#8, 0#8] = .ok (.cmdSetHome 500 0 0 0, []) := by decide

theorem test_decode_select_afc :
    decode [0x04#8, 0#8, 0x02#8, 0#8, 0#8, 0#8, 0#8, 0#8, 0#8, 0#8, 0#8] = .ok (.cmdSelectAfc 0 0 0 0, []) := by decide

theorem test_decode_select_manual :
    decode [0x04#8, 0#8, 0x03#8, 0xFF#8, 0xFF#8, 0#8, 0x01#8, 0#8, 0x02#8, 0#8, 0x03#8]
      = .ok (.cmdSelectManual 0xFFFF 1 2 3, []) := by decide

theorem test_decode_set_manual :
    decode [0x04#8, 0#8, 0x04#8, 0x02#8, 0x6C#8, 0#8, 0#8, 0#8, 0#8, 0#8, 0#8] = .ok (.cmdSetManual 620 0 0 0, []) := by decide

theorem test_decode_manual_up :
    decode [0x04#8, 0#8, 0x05#8, 0#8, 0x32#8, 0#8, 0#8, 0#8, 0#8, 0#8, 0#8] = .ok (.cmdManualUp 50 0 0 0, []) := by decide

theorem test_decode_manual_down :
    decode [0x04#8, 0#8, 0x06#8, 0xFF#8, 0xFF#8, 0#8, 0#8, 0#8, 0#8, 0#8, 0#8] = .ok (.cmdManualDown 0xFFFF 0 0 0, []) := by decide

theorem test_decode_unknown :
    decode [0x04#8, 0x12#8, 0x34#8, 0#8, 0x01#8, 0#8, 0x02#8, 0#8, 0x03#8, 0#8, 0x04#8] = .ok (.cmdUnknown 0x1234 1 2 3 4, [])
      ∧ decode [0x04#8, 0x01#8, 0x01#8, 0#8, 0#8, 0#8, 0#8, 0#8, 0#8, 0#8, 0#8] = .ok (.cmdUnknown 0x0101 0 0 0 0, []) := by decide

/-- The mode numbering of 30_encoding.md R90. -/
theorem test_decode_modes :
    [0b000#3, 0b001#3, 0b010#3, 0b011#3, 0b100#3, 0b101#3, 0b110#3, 0b111#3].map decodeMode
      = [.loopStartup, .loopAutoZero, .loopAutoHome, .loopRunAfc, .loopRunManual, .loopUndefined 5, .loopUndefined 6,
          .loopUndefined 7] := by decide

theorem test_decode_refused :
    decode [0x06#8] = .error (.reservedEvent 0x06) ∧ decode [0x0D#8] = .error (.reservedEvent 0x0D)
      ∧ decode [0x10#8] = .error (.reservedEvent 0x10) ∧ decode [0xFF#8] = .error (.reservedEvent 0xFF)
      ∧ decode [0x05#8, 0x08#8] = .error (.reservedLevels 0x08) ∧ decode [0x05#8, 0xF1#8] = .error (.reservedLevels 0xF1)
      ∧ decode [0x01#8, 0#8, 0x01#8] = .error (.truncatedWord 0x01)
      ∧ decode [0x04#8, 0#8, 0x01#8, 0x01#8, 0xF4#8] = .error (.truncatedWord 0x04)
      ∧ decode [0x05#8] = .error (.truncatedWord 0x05) := by decide

theorem test_decode_trace :
    decodeTrace [0x0F#8, 0x05#8, 0x01#8, 0x00#8] = .ok [.reset, .setin true false false, .loop]
      ∧ decodeTrace [0x00#8, 0x06#8] = .error (.reservedEvent 0x06) := by decide

/-- Internal layouts of 30_encoding.md R92 and R93: most significant field first. -/
theorem test_record_bits :
    (CmdRecord.bits ⟨0x0001, 0x0203, 0x0405, 0x0607, 0x0809⟩) = 0x00010203040506070809#80
      ∧ (HistEntry.bits ⟨0x0102, 0x0304, 0x0506⟩) = 0x010203040506#48 := by decide

/-- Fault class codes of 60_exceptions.md R270, and the direction bits and inversion of 30_encoding.md R91. -/
theorem test_names :
    [FaultClass.sensor, .communication, .configuration, .unreachableState, .catastrophic].map FaultClass.code = [1, 2, 3, 4, 5]
      ∧ dirBit .up = true ∧ dirBit .down = false ∧ invertDir .up = .down ∧ invertDir .down = .up := by decide

/-- The numbering of spec/opcode_table.json: event code in the top byte; a `mode` row is one byte once rounded up (log 6). -/
theorem test_table_words :
    decodeTableWord 72 0x010123080004560C00 = some (.capture 0x0123 0x0800 0x0456 0x0C00)
      ∧ decodeTableWord 88 0x04000101F4000000000000 = some (.cmdSetHome 500 0 0 0)
      ∧ decodeTableWord 16 0x0504 = some (.setin false false true) ∧ decodeTableWord 8 0x0E = some .trap
      ∧ decodeTableWord 3 0 = some .loopStartup ∧ decodeTableWord 8 1 = some .loopAutoZero
      ∧ decodeTableWord 3 2 = some .loopAutoHome ∧ decodeTableWord 8 2 = some .step
      ∧ decodeTableWord 8 5 = some (.loopUndefined 5) ∧ decodeTableWord 16 0x0508 = none := by decide

theorem test_fetch_word_steps :
    step (State.reset.withFetchWord 16 0x0501) = exec (.setin true false false) State.reset
      ∧ step (State.reset.withFetchWord 3 4) = exec .loopRunManual (State.reset.mapRegs fun r => { r with mode := 4 }) :=
  ⟨rfl, rfl⟩

/-! ### The text form (30_encoding.md R105, R106) -/

theorem test_assemble_boot :
    (assemble "BOOT ; power-on\n\nLOOP").map encodeTrace = some [0x0F#8, 0x05#8, 0x01#8, 0x00#8, 0x00#8] := by decide

theorem test_assemble_pseudo :
    assemble "PULSE 1, 2, 3, 4\nIDLE 2\nMOVE 1\nSTEP * 3"
      = some [.capture 1 2 3 4, .loop, .slowtick, .loop, .slowtick, .loop, .step, .loop, .step, .step, .step] := by decide

theorem test_assemble_commands :
    assemble "CMD SET_HOME 500\nCMD MANUAL_DOWN 0xFFFF\nCMD RAW 0x1234, 1, 2, 3, 4\nSETIN 1, 1, 0"
      = some [.cmdSetHome 500 0 0 0, .cmdManualDown 0xFFFF 0 0 0, .cmdUnknown 0x1234 1 2 3 4, .setin true true false] := by decide

theorem test_assemble_refuses : assemble "JUMP 3" = none ∧ assemble "CAPTURE 1, 2, 3" = none ∧ assemble "SETIN 2, 0, 0" = none := by
  decide

/-! ### Pure functions -/

/-- V-DB. -/
theorem test_to_db :
    ([0, 99, 100, 101, 102, 2000, 3000, 4093, 4094, 4095, 4096, 65535].map fun x => (toDb refCfg x).toNat)
      = [9987, 9987, 9987, 9985, 9982, 5237, 2737, 5, 2, 0, 0, 0] := by decide +kernel

/-- The example of 44_cooldown_status.md R226. -/
theorem test_blend :
    blend 15 700 500 32768 = 700 ∧ blend 15 700 500 32510 = 698 ∧ blend 15 300 500 32510 = 302 ∧ blend 15 700 500 16319 = 599
      ∧ blend 15 700 500 128 = 500 ∧ blend 15 700 500 0 = 500 := by decide +kernel

/-- 00_scope.md R11: the saturating and wrapping helpers at their ends. -/
theorem test_helpers :
    sat16 (-1) = 0 ∧ sat16 65536 = 0xFFFF ∧ incSat (0xFFFF : U16) 0xFFFF = 0xFFFF ∧ incWrap16 0xFFFF = 0
      ∧ clamp 5 900 100 = 900 ∧ clamp 950 900 100 = 100 ∧ absdiff 3 10 = 7 ∧ absdiff 10 3 = 7 := by decide

/-- A calibration table overrides the identity where it lists a reading (log 2). -/
theorem test_calibration : calApply [(5, 7), (5, 8)] 5 = 7 ∧ calApply [(5, 7)] 6 = 6 := by decide

/-- V-PWM: the last entry of the table, a switch of table, and the wrap of the offsets. -/
theorem test_pwm :
    (pwmDuty refCfg (runWith fun r => { r with currentPosition := 127 }).regs 1).toNat = 2031
      ∧ (pwmDuty refCfg (runWith fun r => { r with timeStepsStopped := 50 }).regs 3).toNat = 584
      ∧ (pwmDuty refCfg State.reset.regs 0).toNat = 2104 := by decide +kernel

/-- V-ST-1. -/
theorem test_status :
    statusWord refCfg State.reset.regs = 0x0004 ∧ statusWord refCfg run.regs = 0x0300 ∧ statusWord refCfg (inMode 6).regs = 0x0600
      ∧ statusWord refCfg
          (runWith fun r => { r with
            sampleComplete := true, slowTickFlag := true, fastAfcDone := true, timeStepsStopped := 50
            manualModeReq := true }).regs = 0x0BF0 := by decide +kernel

/-- The output ports of `RST` (70_reset_and_hazards.md R310). -/
theorem test_ports_reset :
    ports State.reset = ⟨2104, 2008, 2040, 2072, true, false, false, false, 0x0004⟩ := by decide +kernel

/-! ### One operation at a time -/

/-- `State.reset` is the reset record. -/
theorem test_reset_record : State.reset.regs = resetRegs State.reset.cfg := by decide +kernel

/-- V-RST-1: the levels are kept. -/
theorem test_reset :
    after .reset { run with inp := ⟨true, true, true⟩, regs := { run.regs with commFault := true, activeIndex := 3 } }
      (fun t => t.regs = State.reset.regs && t.inp = ⟨true, true, true⟩) = true := by decide +kernel

/-- V-RST-2. -/
theorem test_trap : after .trap run (fun t => t.regs = State.reset.regs && t.out.raised = some .catastrophic) = true := by
  decide +kernel

/-- V-IN-1. -/
theorem test_setin : after (.setin true true false) run (fun t => t.regs = run.regs && t.inp = ⟨true, true, false⟩) = true := by
  decide +kernel

/-- V-CAP-1: the sentinel is replaced on the external channel alone. -/
theorem test_capture_sentinel :
    after (.capture 0x0123 2000 0x0456 0xFFFF) (runWith fun r => { r with pulsesOnThisRun := 7, timeOffCounter := 300 })
      (fun t => t.regs = { run.regs with
          positionAtTrigger := 500, revRawInt := 291, revRawExt := 2000, fwdRawInt := 1110, fwdRawExt := 0
          sampleComplete := true, pulsesOnThisRun := 8 } && t.out.raised = some .sensor) = true := by decide +kernel

/-- V-CAP-4, V-CAP-5: the counter rolls over; in `Startup` nothing happens. -/
theorem test_capture_wraps :
    after (.capture 1 2 3 4) (runWith fun r => { r with pulsesOnThisRun := 0xFFFF }) (fun t => t.regs.pulsesOnThisRun = 0) = true
      ∧ after (.capture 1 2 3 4) State.reset (fun t => t = State.reset) = true := by decide +kernel

/-- V-ACT-6, V-ACT-8: the clamp is written back. -/
theorem test_step_clamps :
    after .step (runWith fun r => { r with targetPosition := 2000, timeStepsStopped := 17 })
      (fun t => t.regs.targetPosition = 900 && t.regs.currentPosition = 501 && t.regs.timeStepsStopped = 0) = true
      ∧ after .step (State.reset.mapRegs fun r => { r with targetPosition := 0 }) (fun t => t.regs.currentPosition = 1000) = true := by
  decide +kernel

/-- V-ACT-4, V-ACT-5, V-ACT-12: the stopped counter reaches the threshold and stays; no wrap below 0. -/
theorem test_step_stopped :
    after .step (runWith fun r => { r with timeStepsStopped := 49 }) (fun t => t.regs.timeStepsStopped = 50) = true
      ∧ after .step (runWith fun r => { r with timeStepsStopped := 50 }) (fun t => t.regs.timeStepsStopped = 50) = true
      ∧ after .step (runWith fun r => { r with currentPosition := 0, targetPosition := 0, minPosition := 0 })
          (fun t => t.regs.currentPosition = 0 && t.regs.timeStepsStopped = 1) = true := by decide +kernel

/-- V-CD-0. -/
theorem test_slowtick : after .slowtick run (fun t => statusWord t.cfg t.regs = 0x0B00) = true := by decide +kernel

/-- V-SM-14: the sample is served before the tick. -/
theorem test_loop_both_flags :
    after .loop
      (runWith fun r => { r with
        sampleComplete := true, slowTickFlag := true, revRawExt := 2000, fwdRawExt := 3000, positionAtTrigger := 500
        pulsesOnThisRun := 1 })
      (fun t => t.regs.targetPosition = 508 && t.regs.manualTargetPosition = 508 && t.regs.timeOffCounter = 1
        && histRead t.regs.hist 1 = ⟨500, 5237, 2737⟩ && t.regs.noDecisionCounter = 1 && t.out.wdtKick) = true := by decide +kernel

/-- V-SM-12: the recovery serves nothing. -/
theorem test_loop_undefined :
    after .loop (runWith fun r => { r with mode := 6, sampleComplete := true, slowTickFlag := true })
      (fun t => t.regs = { run.regs with sampleComplete := true, slowTickFlag := true }
        && t.out.raised = some .unreachableState) = true := by decide +kernel

/-- V-SM-1, V-SM-2. -/
theorem test_startup :
    after .loopStartup State.reset (fun t => t = State.reset) = true
      ∧ after .loopStartup { State.reset with inp := ⟨true, false, false⟩ } (fun t => statusWord t.cfg t.regs = 0x010D) = true := by
  decide +kernel

/-- V-SM-3, V-SM-4, V-SM-5: both conditions are needed. -/
theorem test_auto_zero :
    after .loopAutoZero (runWith fun r => { r with mode := 1, currentPosition := 5 }) (fun t => t.regs.mode = 1) = true
      ∧ after .loopAutoZero (runWith fun r => { r with mode := 1, currentPosition := 4, notConfigured := true })
          (fun t => t.regs.mode = 1) = true
      ∧ after .loopAutoZero (runWith fun r => { r with mode := 1, currentPosition := 4 })
          (fun t => t.regs.mode = 2 && t.regs.targetPosition = 0) = true := by decide +kernel

/-- V-SM-6, V-SM-7. -/
theorem test_auto_home :
    after .loopAutoHome (runWith fun r => { r with mode := 2, currentPosition := 4, minPosition := 0, maxPosition := 1000 })
      (fun t => t.regs.mode = 2 && t.regs.targetPosition = 500 && t.regs.minPosition = 100 && t.regs.maxPosition = 900) = true
      ∧ after .loopAutoHome (inMode 2) (fun t => t.regs.mode = 3) = true := by decide +kernel

/-- R124, R128: the test is exact equality; a home of 50, below the range, ends the homing at 50 and holds it from 51 on (log 17). -/
theorem test_auto_home_passing :
    after .loop (runWith fun r => { r with mode := 2, homePosition := 50, currentPosition := 50 }) (fun t => t.regs.mode = 3) = true
      ∧ after .loop (runWith fun r => { r with mode := 2, homePosition := 50, currentPosition := 51 }) (fun t => t.regs.mode = 2)
        = true := by decide +kernel

/-- V-SM-9, V-CD-5: the mirror; the cooldown on a served tick. -/
theorem test_run_afc :
    after .loopRunAfc (runWith fun r => { r with targetPosition := 508, manualModeReq := true })
      (fun t => t.regs.manualTargetPosition = 508 && t.regs.mode = 4) = true
      ∧ after .loopRunAfc
          (runWith fun r => { r with
            slowTickFlag := true, timeOffCounter := 1023, afcHotPosition := 700, fastAfcDone := true, pulsesOnThisRun := 300 })
          (fun t => t.regs.targetPosition = 698 && !t.regs.fastAfcDone && t.regs.pulsesOnThisRun = 0
            && t.regs.afcHotPosition = 700) = true := by decide +kernel

/-- V-SM-11, V-CD-13b: the return; no cooldown target in manual mode, but the hot position is recorded. -/
theorem test_run_manual :
    after .loopRunManual (runWith fun r => { r with mode := 4, manualTargetPosition := 620 })
      (fun t => t.regs.targetPosition = 620 && t.regs.mode = 3) = true
      ∧ after .loopRunManual
          ((m4 620).mapRegs fun r => { r with slowTickFlag := true, timeOffCounter := 511, afcHotPosition := 700 })
          (fun t => t.regs.targetPosition = 620 && t.regs.afcHotPosition = 500) = true := by decide +kernel

/-- V-SM-13. -/
theorem test_undefined_body : after (.loopUndefined 5) (inMode 5) (fun t => t.regs = run.regs) = true := by decide +kernel

/-- V-CMD-1, V-CMD-8. -/
theorem test_set_home :
    after (.cmdSetHome 5000 9 9 9) (runWith fun r => { r with notConfigured := true })
      (fun t => t.regs = { run.regs with homePosition := 5000 }) = true
      ∧ after (.cmdSetHome 500 0 0 0) State.reset (fun t => t = State.reset) = true := by decide +kernel

/-- V-CMD-2, V-CMD-3b. -/
theorem test_selections :
    after (.cmdSelectAfc 0 0 0 0) (m4 500) (fun t => statusWord t.cfg t.regs = 0x0400) = true
      ∧ after (.cmdSelectManual 0xFFFF 1 2 3) run (fun t => t.regs = { run.regs with manualModeReq := true }) = true := by
  decide +kernel

/-- V-CMD-4b. -/
theorem test_set_manual : after (.cmdSetManual 5000 0 0 0) (m4 500) (fun t => t.regs.manualTargetPosition = 5000) = true := by
  decide +kernel

/-- V-CMD-5: a sum above 16 bits, and a value below the lower bound. -/
theorem test_manual_up :
    after (.cmdManualUp 1000 0 0 0) (m4 65000) (fun t => t.regs.manualTargetPosition = 900) = true
      ∧ after (.cmdManualUp 10 0 0 0) (m4 50) (fun t => t.regs.manualTargetPosition = 100) = true := by decide +kernel

/-- V-CMD-6: a negative difference, and a value above the upper bound. -/
theorem test_manual_down :
    after (.cmdManualDown 0xFFFF 0 0 0) (m4 500) (fun t => t.regs.manualTargetPosition = 100) = true
      ∧ after (.cmdManualDown 10 0 0 0) (m4 950) (fun t => t.regs.manualTargetPosition = 900) = true := by decide +kernel

/-- V-CMD-7. -/
theorem test_unknown : after (.cmdUnknown 0x1234 1 2 3 4) run (fun t => t = run) = true := by decide +kernel

/-! ### The direction engine and the slow tick -/

/-- V-DDE-2, V-DDE-3, V-DDE-3c: the votes and the targets. -/
theorem test_decide_votes :
    (decideRegs refCfg (decideStart 508 4900)).targetPosition = 516
      ∧ (decideRegs refCfg (decideStart 508 5100)).targetPosition = 500
      ∧ (decideRegs refCfg (decideStart 508 5100)).inversionCounter = 1
      ∧ (decideRegs refCfg (decideStart 492 5100)).targetPosition = 500 := by decide +kernel

/-- V-DDE-4b, V-DDE-4c: the thresholds are inclusive. -/
theorem test_decide_thresholds :
    (decideRegs refCfg (decideStart 502 4993)).noDecisionCounter = 1
      ∧ (decideRegs refCfg (decideStart 502 4992)).noDecisionCounter = 0 := by decide +kernel

/-- V-DDE-7a, V-DDE-7b: the latch is strict in the floor, and the small step takes effect at once. -/
theorem test_decide_latch :
    (decideRegs refCfg { decideStart 492 5100 with pulsesOnThisRun := 21, inversionCounter := 3 }).targetPosition = 494
      ∧ (decideRegs refCfg { decideStart 492 5100 with pulsesOnThisRun := 20, inversionCounter := 10 }).fastAfcDone = false := by
  decide +kernel

/-- V-DDE-9a, V-DDE-9b: the tie rule at the cap. -/
theorem test_decide_ties :
    (decideRegs refCfg { decideStart 508 5000 with noDecisionCounter := 3 }).targetPosition = 516
      ∧ (decideRegs refCfg { decideStart 508 5000 with noDecisionCounter := 4 }).targetPosition = 500
      ∧ (decideRegs refCfg { decideStart 508 5000 with noDecisionCounter := 4 }).noDecisionCounter = 0 := by decide +kernel

/-- V-DDE-8a, V-DDE-8b: the target saturates at both ends. -/
theorem test_decide_saturates :
    (decideRegs refCfg { decideStart 5 4900 with minPosition := 0 }).targetPosition = 0
      ∧ (decideRegs refCfg { decideStart 508 4900 with currentPosition := 0xFFFC }).targetPosition = 65535 := by decide +kernel

/-- V-CD-3: the crossing records the live position and blends from it in the same tick. -/
theorem test_slowsvc_crossing :
    (slowsvcRegs refCfg run.inp { run.regs with timeOffCounter := 511, currentPosition := 650, targetPosition := 700 }).targetPosition
      = 649 := by decide +kernel

/-- V-CD-10: the count holds at the ceiling and above it, and the table index is capped. -/
theorem test_slowsvc_ceiling :
    (slowsvcRegs refCfg run.inp { run.regs with timeOffCounter := 131071 }).timeOffCounter = 131071
      ∧ (slowsvcRegs refCfg run.inp { run.regs with timeOffCounter := 200000, afcHotPosition := 700 }).targetPosition = 500 := by
  decide +kernel

/-- The sixteen cases of 95_test_vectors.md section 2.8: latch, remembered level, fault level, reset level. -/
theorem test_comm_latch :
    ([(false, false, false, true), (false, false, true, false), (true, false, false, true), (true, false, true, true),
        (true, true, false, true), (true, true, false, false)].map fun (f, p, c, r) =>
      (slowsvcRegs refCfg ⟨true, c, r⟩ { run.regs with commFault := f, faultResetPrev := p }).commFault)
      = [false, true, false, true, true, true] := by decide +kernel

/-- 60_exceptions.md R282, V-CAP-7: in one cycle the capture comes before the step. -/
theorem test_same_cycle :
    (match execCycle ⟨false, false, some ⟨1, 2, 3, 4⟩, true, false, none, false⟩ (runWith fun r => { r with currentPosition := 499 }) with
      | .next t => t.regs.positionAtTrigger = 499 && t.regs.currentPosition = 500
      | .fault _ => false
      | .refused _ => false) = true := by decide +kernel

/-- A step with nothing presented is refused by name (log 4). -/
theorem test_step_no_trace : step run = .refused .traceEnd := rfl

/-! ### Inputs that meet the hypotheses of the statements -/

theorem witness_OutputsRightAfterReset : resetRegs refCfg = State.reset.regs ∧ (resetRegs refCfg).mode = 0
    ∧ (∀ i, histRead (resetRegs refCfg).hist i = ⟨0, 0, 0⟩) := by decide +kernel

/-- Every value of `mode` has a state, so each clause on `mode` has an input. -/
theorem witness_LoopRunsTheBodyThatModeSelects : ∀ m : ModeBits, (inMode m).regs.mode = m := by decide +kernel

theorem witness_UndefinedModeIsForcedToRunAfc : 5 ≤ (inMode 5).regs.mode.toNat ∧ 5 ≤ (inMode 7).regs.mode.toNat := by decide +kernel

theorem witness_ModeFollowsTheTransitionRelation :
    Instr.hasTraceWord .loop = true ∧ (runWith fun r => { r with mode := 1, currentPosition := 4 }).regs.currentPosition
      ≤ run.cfg.zeroTolerance := by decide +kernel

theorem witness_StartupIgnoresTriggersAndCommands :
    State.reset.regs.mode = 0 ∧ isGated .step = true ∧ isGated (.cmdUnknown 0 0 0 0 0) = true
      ∧ ({ State.reset with inp := ⟨true, false, false⟩ } : State).inp.bringupDone = true := by decide +kernel

/-- Both sides of the gate, and a reading that is the sentinel. -/
theorem witness_CaptureTakesTheSnapshot :
    State.reset.regs.mode = 0 ∧ run.regs.mode ≠ 0 ∧ (0xFFFF : U16) = run.cfg.extAdcSentinel := by decide +kernel

theorem witness_SecondCaptureReplacesTheSample : run.regs.mode = 3 := by decide +kernel

theorem witness_SlowtickRaisesTheFlagAlone :
    State.reset.regs.mode = 0 ∧ run.regs.mode ≠ 0 ∧ (runWith fun r => { r with slowTickFlag := true }).regs.slowTickFlag = true := by
  decide +kernel

/-- A cycle with a reset, one with a trap alone, and one with a capture and a step outside `Startup`. -/
theorem witness_SimultaneousRequestsRunInPriorityOrder :
    arbitrate ⟨true, true, none, true, false, none, false⟩ = [.reset]
      ∧ arbitrate ⟨false, true, none, true, false, none, true⟩ = [.trap]
      ∧ arbitrate ⟨false, false, some ⟨1, 2, 3, 4⟩, true, true, some ⟨7, 0, 0, 0, 0⟩, true⟩
        = [.capture 1 2 3 4, .step, .slowtick, .cmdUnknown 7 0 0 0 0, .loop]
      ∧ run.regs.mode ≠ 0 := by decide +kernel

theorem witness_StepMovesOneUnitTowardTheClampedTarget : State.reset.regs.mode = 0 ∧ run.regs.mode ≠ 0 := by decide +kernel

/-- At the upper bound, and away from the target by the number of steps taken. -/
theorem witness_RepeatedStepsReachTheClampedTarget :
    let s := runWith fun r => { r with currentPosition := 900, targetPosition := 897 }
    s.regs.mode ≠ 0 ∧ s.regs.minPosition ≤ s.regs.maxPosition ∧ s.regs.minPosition ≤ s.regs.currentPosition
      ∧ s.regs.currentPosition ≤ s.regs.maxPosition
      ∧ absdiff s.regs.currentPosition (clamp16 s.regs.targetPosition.toNat s.regs.minPosition s.regs.maxPosition) ≤ 3 := by
  decide +kernel

/-- Two readings in order across each bound. -/
theorem witness_ToDbNeverIncreasesAndSaturates :
    (100 : U16) ≤ 101 ∧ (100 : U16) ≤ refCfg.minReading ∧ refCfg.maxReading ≤ (4095 : U16) := by decide +kernel

/-- A pair that each test makes quiet at its boundary, and pairs that reach the two votes. -/
theorem witness_CompareVotesByTheSignsOfBothChanges :
    compareVote refCfg ⟨500, 500, 0⟩ ⟨0, 900, 0⟩ = .noData ∧ absdiff 501 500 < refCfg.minPositionChange.toNat
      ∧ ¬ absdiff 502 500 < refCfg.minPositionChange.toNat ∧ ¬ absdiff 4992 5000 < refCfg.minPowerChange.toNat
      ∧ compareVote refCfg ⟨502, 4992, 0⟩ ⟨500, 5000, 0⟩ = .up ∧ compareVote refCfg ⟨502, 5008, 0⟩ ⟨500, 5000, 0⟩ = .down := by
  decide +kernel

/-- Sums above, below and at 15; at 15 below and at the cap; both directions; the latch on both sides. -/
theorem witness_DecideFollowsTheSevenSteps :
    decideSum refCfg (decideStart 508 5100) = 16 ∧ decideSum refCfg (decideStart 508 4900) = 14
      ∧ decideSum refCfg (decideStart 508 5000) = 15 ∧ (3 : U8) < refCfg.noDecisionCap ∧ refCfg.noDecisionCap ≤ (4 : U8)
      ∧ decideDir refCfg (decideStart 508 4900) = .up ∧ decideDir refCfg (decideStart 508 5100) = .down := by decide +kernel

/-- Sixteen samples and one: entries of the run and one that is older than the run. -/
theorem witness_HistoryIsAFifoOfSixteenSamples :
    15 < (List.replicate 16 HistEntry.zero).length ∧ (List.replicate 1 HistEntry.zero).length ≤ 1 ∧ (15 : Nat) < 16 := by decide

theorem witness_IdenticalSamplesForceAnInversion :
    run.regs.noDecisionCounter = 0 ∧ (∀ j, (histRead run.regs.hist j).position = 0) ∧ refCfg.noDecisionCap.toNat = 4 := by
  decide +kernel

/-- One tick below the threshold, one that crosses it, in mode 3 and outside it. -/
theorem witness_SlowServiceWritesWhatItsRuleSays :
    (slowsvcRegs refCfg run.inp { run.regs with timeOffCounter := 510 }).timeOffCounter < refCfg.cooldownStartThreshold
      ∧ refCfg.cooldownStartThreshold ≤ (slowsvcRegs refCfg run.inp { run.regs with timeOffCounter := 511 }).timeOffCounter
      ∧ run.regs.mode = 3 ∧ (inMode 4).regs.mode ≠ 3 := by decide +kernel

/-- Both sides of home, the full multiplier and zero. -/
theorem witness_BlendStaysBetweenHomeAndHot :
    (32768 : U16).toNat ≤ 2 ^ 15 ∧ (32767 : U16) ≤ 32768 ∧ (500 : U16) ≤ 700 ∧ (300 : U16) < 500 ∧ (32768 : U16).toNat = 2 ^ 15
      ∧ (0 : U16) ≤ 0 := by decide

/-- Two counts in one bucket, two in neighbouring buckets, the ceiling, and a state in cooldown. -/
theorem witness_CooldownDecaysToHome :
    (512 : U32) ≤ 1023 ∧ (1023 : U32) ≤ refCfg.timeOffCeiling ∧ 512 / 2 ^ refCfg.cooldownShift = 1023 / 2 ^ refCfg.cooldownShift
      ∧ 1023 / 2 ^ refCfg.cooldownShift + 1 = 1024 / 2 ^ refCfg.cooldownShift
      ∧ (let s := runWith fun r => { r with slowTickFlag := true, timeOffCounter := 512, afcHotPosition := 700 }
         s.cfg = refCfg ∧ s.regs.mode = 3 ∧ s.regs.sampleComplete = false ∧ s.regs.slowTickFlag = true ∧ s.regs.homePosition = 500
          ∧ s.regs.afcHotPosition = 700 ∧ refCfg.cooldownStartThreshold ≤ s.regs.timeOffCounter) := by decide +kernel

/-- A served slow tick, and a `LOOP` that serves none. -/
theorem witness_CommFaultIsSetByLevelAndClearedByEdge :
    Instr.hasTraceWord .loop = true ∧ isRestart .loop = false ∧ 1 ≤ run.regs.mode.toNat ∧ run.regs.mode.toNat ≤ 4
      ∧ (runWith fun r => { r with slowTickFlag := true }).regs.slowTickFlag = true ∧ run.regs.slowTickFlag = false := by
  decide +kernel

/-- A taken capture, a served tick below the ceiling and at it, and an operation that is neither. -/
theorem witness_IdleTimeCountsServedSlowTicks :
    Instr.hasTraceWord (.capture 1 2 3 4) = true ∧ isRestart (.capture 1 2 3 4) = false ∧ isRestart .step = false
      ∧ run.regs.mode ≠ 0 ∧ 1 ≤ run.regs.mode.toNat ∧ run.regs.mode.toNat ≤ 4
      ∧ (131070 : U32) < refCfg.timeOffCeiling ∧ ¬ (131071 : U32) < refCfg.timeOffCeiling := by decide +kernel

/-- A decision that sets the latch, and a served tick that clears it. -/
theorem witness_FastLatchChangesOnlyByDecisionOrCooldown :
    after .loop
      (runWith fun r => { r with sampleComplete := true, pulsesOnThisRun := 201 }) (fun t => t.regs.fastAfcDone) = true
      ∧ after .loop (runWith fun r => { r with slowTickFlag := true, timeOffCounter := 512, fastAfcDone := true })
          (fun t => !t.regs.fastAfcDone) = true := by decide +kernel

theorem witness_WatchdogIsKickedByServedSlowTicks :
    after .loop (runWith fun r => { r with slowTickFlag := true }) (fun t => t.out.wdtKick) = true
      ∧ after .loop run (fun t => !t.out.wdtKick) = true := by decide +kernel

theorem witness_FaultClassesAreReportedWhereTheyOccur :
    after .trap run (fun t => t.out.raised = some .catastrophic) = true
      ∧ after .loop (inMode 5) (fun t => t.out.raised = some .unreachableState) = true
      ∧ after (.capture 0 0xFFFF 0 0) run (fun t => t.out.raised = some .sensor) = true := by decide +kernel

/-- The hypothesis of the five command statements, at both ends of the modes that take commands. -/
theorem witness_commands : (inMode 1).regs.mode ≠ 0 ∧ (inMode 7).regs.mode ≠ 0 ∧ run.regs.mode ≠ 0 := by decide +kernel

/-- The boundary values of the index ranges. -/
theorem witness_CommandIndexSelectsTheOperation :
    decodeCmd ⟨0, 1, 2, 3, 4⟩ = .cmdUnknown 0 1 2 3 4 ∧ decodeCmd ⟨1, 1, 2, 3, 4⟩ = .cmdSetHome 1 2 3 4
      ∧ decodeCmd ⟨2, 1, 2, 3, 4⟩ = .cmdSelectAfc 1 2 3 4 ∧ decodeCmd ⟨3, 1, 2, 3, 4⟩ = .cmdSelectManual 1 2 3 4
      ∧ decodeCmd ⟨4, 1, 2, 3, 4⟩ = .cmdSetManual 1 2 3 4 ∧ decodeCmd ⟨5, 1, 2, 3, 4⟩ = .cmdManualUp 1 2 3 4
      ∧ decodeCmd ⟨6, 1, 2, 3, 4⟩ = .cmdManualDown 1 2 3 4 ∧ decodeCmd ⟨7, 1, 2, 3, 4⟩ = .cmdUnknown 7 1 2 3 4
      ∧ decodeCmd ⟨0xFFFF, 1, 2, 3, 4⟩ = .cmdUnknown 0xFFFF 1 2 3 4 := by decide

/-- An operation of each agent. -/
theorem witness_AgentsWriteOnlyTheirOwnFields :
    ([.capture 1 2 3 4, .step, .loop, .cmdManualDown 1 0 0 0, .slowtick].map fun i : Instr =>
        (i.hasTraceWord, isRestart i, requestRank i))
      = [(true, false, 2), (true, false, 3), (true, false, 6), (true, false, 5), (true, false, 4)] := by decide

theorem witness_NoOperationChangesTheConfiguration : ∀ b c r, Instr.loop ≠ .setin b c r := by decide

/-- Two different states that agree but for the internal readings. -/
theorem witness_InternalReadingsInfluenceNothing :
    EqualButInternal run (runWith fun r => { r with revRawInt := 1, fwdRawInt := 0xFFFF })
      ∧ run ≠ runWith fun r => { r with revRawInt := 1, fwdRawInt := 0xFFFF } := by
  unfold EqualButInternal
  decide +kernel

/-- `RUN` has the invariant. -/
theorem run_has_the_invariant : Inv (run.setTrace [0x00#8]) := by constructor <;> decide +kernel

theorem witness_EveryStepKeepsTheInvariant :
    Inv (run.setTrace [0x00#8]) ∧ ∃ t, step (run.setTrace [0x00#8]) = .next t :=
  ⟨run_has_the_invariant, _, rfl⟩

theorem witness_ManualRoundTripKeepsTheTarget :
    (runWith fun r => { r with manualModeReq := true }).regs.mode = 3
      ∧ (runWith fun r => { r with manualModeReq := true }).regs.manualModeReq = true
      ∧ ∀ i ∈ [Instr.loop, .step, .loop, .slowtick, .capture 1 2 3 4, .setin true true true, .cmdSetHome 1 0 0 0,
          .cmdSelectManual 0 0 0 0, .cmdUnknown 0 0 0 0 0], keepsManualTarget i = true := by decide +kernel

/-- `RUN` in `AutoHome` with a home and a position. -/
def homing (home position : U16) : State := runWith fun r =>
  { r with mode := 2, homePosition := home, currentPosition := position }

/-- V-SM-8, the motor at the upper bound and the home just above it, and the way up from zero; a home just below the lower bound that
the motor has passed, inside the range and outside it. -/
theorem witness_HomeOutsideTheRangeHoldsTheCoreInAutoHome :
    ([homing 901 0, homing 901 99, homing 901 900, homing 99 100, homing 50 51].all fun s =>
        s.regs.mode = 2 && s.regs.minPosition = s.cfg.posOpMin && s.regs.maxPosition = s.cfg.posOpMax
          && (s.regs.homePosition < s.cfg.posOpMin && s.regs.homePosition < s.regs.currentPosition
            || s.cfg.posOpMax < s.regs.homePosition && s.regs.currentPosition < s.regs.homePosition)) = true
      ∧ ∀ i ∈ [Instr.loop, .step, .slowtick, .capture 1 2 3 4, .setin true true true, .cmdSelectManual 0 0 0 0], keepsHome i = true := by
  decide +kernel

/-- A core in `AutoHome` that still stands at 3, which is also its home, below the operational range. -/
def homedBelow : State := runWith fun r =>
  { r with mode := 2, minPosition := 0, maxPosition := 1000, currentPosition := 3, homePosition := 3, targetPosition := 0 }

theorem witness_HomeOutsideTheRangeNeverEndsHoming :
    Inv homedBelow ∧ homedBelow.regs.mode = 2 ∧ homedBelow.regs.homePosition < homedBelow.cfg.posOpMin
      ∧ ∃ t, exec .loop homedBelow = .next t :=
  ⟨by constructor <;> decide +kernel, by decide +kernel, by decide +kernel, _, rfl⟩

theorem witness_StepRunsTheDecodedOperation :
    (.setin true false true : Instr).wellFormed = true
      ∧ decode (run.setTrace [0x05#8, 0x05#8, 0x00#8]).trace = .ok (.setin true false true, [0x00#8]) := by decide +kernel

/-- The boundaries of the reserved codes and of the level bits, and the longest truncated words. -/
theorem witness_IllegalTraceWordsAreRefused :
    step (run.setTrace [0x06#8]) = .refused (.reservedEvent 0x06) ∧ step (run.setTrace [0x0D#8]) = .refused (.reservedEvent 0x0D)
      ∧ step (run.setTrace [0x10#8]) = .refused (.reservedEvent 0x10) ∧ step (run.setTrace [0xFF#8]) = .refused (.reservedEvent 0xFF)
      ∧ step (run.setTrace [0x05#8, 0x08#8]) = .refused (.reservedLevels 0x08)
      ∧ step (run.setTrace (0x01#8 :: List.replicate 7 0#8)) = .refused (.truncatedWord 0x01)
      ∧ step (run.setTrace (0x04#8 :: List.replicate 9 0#8)) = .refused (.truncatedWord 0x04)
      ∧ step (run.setTrace [0x05#8]) = .refused (.truncatedWord 0x05) ∧ step run = .refused .traceEnd :=
  ⟨rfl, rfl, rfl, rfl, rfl, rfl, rfl, rfl, rfl⟩

/-- The operands at the ends of what the encoding admits. -/
theorem witness_EncodedOperationsDecodeBack :
    ([.cmdUnknown 0 0 0 0 0, .cmdUnknown 7 0 0 0 0, .cmdUnknown 0xFFFF 1 2 3 0xFFFF, .loopUndefined 5, .loopUndefined 7,
      .capture 0 0xFFFF 0 0xFFFF].all fun i : Instr => i.wellFormed && decide (decodeCode (encode i) = some i)) = true := by
  decide +kernel

theorem witness_DecodedBytesEncodeBack :
    decode [0x05#8, 0x07#8, 0xAA#8] = .ok (.setin true true true, [0xAA#8]) := by decide

theorem witness_RunOfATraceIsTheSequenceOfItsOperations :
    ∀ i ∈ [Instr.reset, .setin true false false, .loop, .cmdUnknown 7 0 0 0 0], i.wellFormed = true ∧ i.hasTraceWord = true := by
  decide

end Sys2Proof.Tests
end

section
/-! The `STATUS` word bit by bit (10_state.md R46). The word is a concatenation whose lowest eight parts are single flags, so
the rules that peel one flag off the low end read every field of it. -/

namespace Sys2Proof.Proofs.Status

open Sys2Proof.Machine Sys2Proof.Config

/-! ### A word that ends in one flag -/

theorem getLsbD_append_ofBool_zero {n : Nat} (x : BitVec n) (b : Bool) : (x ++ BitVec.ofBool b).getLsbD 0 = b := by
  rw [BitVec.getLsbD_append, if_pos Nat.one_pos, BitVec.getLsbD_ofBool]
  rfl

theorem getLsbD_append_ofBool_succ {n : Nat} (x : BitVec n) (b : Bool) (i : Nat) :
    (x ++ BitVec.ofBool b).getLsbD (i + 1) = x.getLsbD i := by
  simp [BitVec.getLsbD_append]

theorem extractLsb'_append_ofBool_succ {n : Nat} (x : BitVec n) (b : Bool) (i len : Nat) :
    (x ++ BitVec.ofBool b).extractLsb' (i + 1) len = x.extractLsb' i len :=
  BitVec.extractLsb'_append_eq_of_le (Nat.le_add_left 1 i)

/-! ### The word as its reserved bits over its twelve defined bits -/

/-- The defined bits 11:0 of `STATUS`, without the reserved ones. -/
def statusFields (c : Cfg) (r : Regs) : BitVec 12 :=
  BitVec.ofBool r.slowTickFlag ++ r.mode ++ BitVec.ofBool r.sampleComplete ++ BitVec.ofBool r.manualModeReq
    ++ BitVec.ofBool (powerModeLow c r) ++ BitVec.ofBool r.fastAfcDone ++ BitVec.ofBool (homingInProgress r)
    ++ BitVec.ofBool r.notConfigured ++ BitVec.ofBool r.commFault ++ BitVec.ofBool (notReady r)

section
variable (c : Cfg) (r : Regs)

theorem statusWord_eq : statusWord c r = 0#4 ++ statusFields c r := rfl

theorem getLsbD_statusWord {i : Nat} (h : i < 12) : (statusWord c r).getLsbD i = (statusFields c r).getLsbD i := by
  rw [statusWord_eq]
  exact BitVec.getLsbD_append.trans (if_pos h)

theorem extractLsb'_statusWord {i len : Nat} (h : i + len ≤ 12) :
    (statusWord c r).extractLsb' i len = (statusFields c r).extractLsb' i len := by
  rw [statusWord_eq]
  exact BitVec.extractLsb'_append_eq_of_add_le h

/-! ### The fields of the word, from the low end up -/

/-- Bits 7:0, the eight flags below `mode`: each is the lowest bit once the flags under it are peeled off. -/
theorem statusWord_flags :
    (statusWord c r).getLsbD 0 = notReady r ∧ (statusWord c r).getLsbD 1 = r.commFault
      ∧ (statusWord c r).getLsbD 2 = r.notConfigured ∧ (statusWord c r).getLsbD 3 = homingInProgress r
      ∧ (statusWord c r).getLsbD 4 = r.fastAfcDone ∧ (statusWord c r).getLsbD 5 = powerModeLow c r
      ∧ (statusWord c r).getLsbD 6 = r.manualModeReq ∧ (statusWord c r).getLsbD 7 = r.sampleComplete := by
  refine ⟨?_, ?_, ?_, ?_, ?_, ?_, ?_, ?_⟩ <;>
    rw [getLsbD_statusWord c r (by decide)] <;>
    simp only [statusFields, getLsbD_append_ofBool_succ, getLsbD_append_ofBool_zero]

/-- Bits 10:8: past the eight flags, `mode` is the low end of what is left. -/
theorem statusWord_mode : (statusWord c r).extractLsb' 8 3 = r.mode := by
  rw [extractLsb'_statusWord c r (by decide)]
  simp only [statusFields, extractLsb'_append_ofBool_succ]
  exact BitVec.extractLsb'_append_eq_right

/-- Bit 11: past the eight flags and the three bits of `mode`. -/
theorem statusWord_slowTickFlag : (statusWord c r).getLsbD 11 = r.slowTickFlag := by
  rw [getLsbD_statusWord c r (by decide)]
  simp only [statusFields, getLsbD_append_ofBool_succ]
  rw [BitVec.getLsbD_append, if_neg (by decide), BitVec.getLsbD_ofBool]
  rfl

/-- Bits 15:12. -/
theorem statusWord_reserved : (statusWord c r).extractLsb' 12 4 = 0 := by
  rw [statusWord_eq]
  exact BitVec.extractLsb'_append_eq_left

end

/-- Settles O46, field by field; `not_ready`, `homing_in_progress` and `power_mode_low` are the conditions of R41 to R43 by
definition. -/
theorem statusBitsShowTheStoredFields : Obligations.StatusBitsShowTheStoredFields := by
  intro c r
  obtain ⟨hready, hcomm, hconfig, hhoming, hfast, hpower, hmanual, hsample⟩ := statusWord_flags c r
  exact ⟨hready, hcomm, hconfig, hhoming, hfast, hpower, hmanual, hsample, statusWord_mode c r,
    statusWord_slowTickFlag c r, statusWord_reserved c r⟩

end Sys2Proof.Proofs.Status
end

section
/-! The index of a command record selects the operation (30_encoding.md R95). A `CMD` word gives back its record, and `decodeCmd`
compares the whole index: the six defined values are told apart one by one, a reserved value fails every comparison. -/

namespace Sys2Proof.Proofs.CommandIndex

/-! ### A `CMD` word gives back its record -/

/-- The two bytes of a 16-bit operand, put together again (R103). -/
@[simp] theorem wordOf_hiByte_loByte (w : U16) : wordOf (hiByte w) (loByte w) = w := by
  have hsplit : wordOf (hiByte w) (loByte w) = w.extractLsb' 0 16 := BitVec.extractLsb'_append_extractLsb'_eq_extractLsb' rfl
  rw [hsplit, BitVec.extractLsb'_eq_self]

/-- A `CMD` word decodes to the operation its record selects, and whatever follows the word is left unread (R93, R100). -/
theorem decode_encodeCmd (c : CmdRecord) (rest : List Byte) : decode (encodeCmd c ++ rest) = .ok (decodeCmd c, rest) := by
  change Except.ok (decodeCmd ⟨wordOf (hiByte _) (loByte _), wordOf (hiByte _) (loByte _), wordOf (hiByte _) (loByte _),
    wordOf (hiByte _) (loByte _), wordOf (hiByte _) (loByte _)⟩, rest) = _
  simp only [wordOf_hiByte_loByte]

/-! ### The operation of each index -/

section
variable (d0 d1 d2 d3 : U16)

@[simp] theorem decodeCmd_setHome : decodeCmd ⟨0x0001#16, d0, d1, d2, d3⟩ = .cmdSetHome d0 d1 d2 d3 := rfl
@[simp] theorem decodeCmd_selectAfc : decodeCmd ⟨0x0002#16, d0, d1, d2, d3⟩ = .cmdSelectAfc d0 d1 d2 d3 := rfl
@[simp] theorem decodeCmd_selectManual : decodeCmd ⟨0x0003#16, d0, d1, d2, d3⟩ = .cmdSelectManual d0 d1 d2 d3 := rfl
@[simp] theorem decodeCmd_setManual : decodeCmd ⟨0x0004#16, d0, d1, d2, d3⟩ = .cmdSetManual d0 d1 d2 d3 := rfl
@[simp] theorem decodeCmd_manualUp : decodeCmd ⟨0x0005#16, d0, d1, d2, d3⟩ = .cmdManualUp d0 d1 d2 d3 := rfl
@[simp] theorem decodeCmd_manualDown : decodeCmd ⟨0x0006#16, d0, d1, d2, d3⟩ = .cmdManualDown d0 d1 d2 d3 := rfl

end

/-- The reserved indices of R96 as the ranges of R95. -/
theorem definedIndex_eq_false_iff (index : U16) : definedIndex index = false ↔ index = 0 ∨ 6 < index.toNat := by
  have hzero : index = 0 ↔ index.toNat = 0 := BitVec.toNat_inj.symm
  rw [definedIndex, Bool.and_eq_false_iff, decide_eq_false_iff_not, decide_eq_false_iff_not, hzero]
  omega

/-- A reserved index is none of the six values that `decodeCmd` compares it with (R96). -/
theorem decodeCmd_of_reserved (c : CmdRecord) (h : definedIndex c.index = false) :
    decodeCmd c = .cmdUnknown c.index c.data0 c.data1 c.data2 c.data3 := by
  have hne (k : U16) (hk : definedIndex k = true) : c.index ≠ k := by
    rintro rfl
    exact Bool.false_ne_true (h.symm.trans hk)
  rw [decodeCmd]
  iterate 6 rw [if_neg (hne _ rfl)]

/-- Settles O45: the word decodes to what `decodeCmd` gives, and that is the operation of the index in each of the seven cases. -/
theorem commandIndexSelectsTheOperation : Obligations.CommandIndexSelectsTheOperation := by
  rintro ⟨index, d0, d1, d2, d3⟩ rest
  refine ⟨decode_encodeCmd _ rest, ?_, ?_, ?_, ?_, ?_, ?_, fun hreserved => ?_⟩
  · rintro rfl; exact decodeCmd_setHome d0 d1 d2 d3
  · rintro rfl; exact decodeCmd_selectAfc d0 d1 d2 d3
  · rintro rfl; exact decodeCmd_selectManual d0 d1 d2 d3
  · rintro rfl; exact decodeCmd_setManual d0 d1 d2 d3
  · rintro rfl; exact decodeCmd_manualUp d0 d1 d2 d3
  · rintro rfl; exact decodeCmd_manualDown d0 d1 d2 d3
  · exact decodeCmd_of_reserved _ ((definedIndex_eq_false_iff _).mpr hreserved)

end Sys2Proof.Proofs.CommandIndex
end

section
/-! The control state machine (40_control_state_machine.md R120 to R129). A mode body that serves is `SERVICE` followed by one function
of the state record, so one frame rule covers all four, and what `SERVICE` leaves alone turns each body's tests into tests of the
state before the `LOOP`. -/

namespace Sys2Proof.Proofs.ControlLoop

open Sys2Proof.Machine Sys2Proof.Config

/-! ### Updates that write the state record and the outputs alone -/

section
variable {s t : State} {r : Regs}

/-- The frame, part by part: only the outputs are free. -/
theorem onlyRegs_iff : OnlyRegs s t r ↔ t.regs = r ∧ t.inp = s.inp ∧ t.cfg = s.cfg ∧ t.trace = s.trace := by
  cases s
  cases t
  simp only [OnlyRegs, State.mk.injEq, true_and]

theorem regs_of_onlyRegs (h : OnlyRegs s t r) : t.regs = r := (onlyRegs_iff.mp h).1

theorem onlyRegs_mapRegs (h : OnlyRegs s t r) (f : Regs → Regs) : OnlyRegs s (t.mapRegs f) (f r) := by
  obtain ⟨hregs, hframe⟩ := onlyRegs_iff.mp h
  exact onlyRegs_iff.mpr ⟨congrArg f hregs, hframe⟩

theorem onlyRegs_raise (h : OnlyRegs s t r) (f : FaultClass) : OnlyRegs s (t.raise f) r :=
  onlyRegs_iff.mpr (onlyRegs_iff (t := t).mp h)

end

section
variable (s : State)

theorem onlyRegs_quiet : OnlyRegs s s.quiet s.regs := rfl

theorem onlyRegs_service : OnlyRegs s (service s) (service s).regs := by
  obtain ⟨hcfg, hinp, htrace⟩ := service_frame s
  exact onlyRegs_iff.mpr ⟨rfl, hinp, hcfg, htrace⟩

/-- The frame rule of the bodies that serve: they run from cleared outputs, and what they write is a function of what `SERVICE` left. -/
theorem onlyRegs_served (f : Regs → Regs) : OnlyRegs s ((service s.quiet).mapRegs f) (f (service s).regs) := by
  obtain ⟨-, hframe⟩ := onlyRegs_iff.mp (onlyRegs_service s.quiet)
  exact onlyRegs_mapRegs (onlyRegs_iff.mpr ⟨service_quiet_regs s, hframe⟩) f

/-! ### SERVICE (R121) -/

/-- `POSTPULSE` keeps `mode`, so the choice of `DECIDE` can be made on the record before it. -/
theorem serveSampleRegs_eq (c : Cfg) (r : Regs) :
    serveSampleRegs c r =
      if r.sampleComplete = true then
        (if r.mode = 3 then decideRegs c (postpulseRegs c { r with sampleComplete := false })
        else postpulseRegs c { r with sampleComplete := false })
      else r := rfl

/-! ### The record that each body leaves, its tests on the state before the LOOP -/

/-- R122: the writes of `LOOP.Startup`, from cleared outputs. -/
theorem onlyRegs_bodyStartup :
    OnlyRegs s (bodyStartup s.quiet)
      (if s.inp.bringupDone = true then
        { s.regs with minPosition := 0, maxPosition := s.cfg.posFullMax, homePosition := s.cfg.posFullMax, mode := 1 }
      else s.regs) := by
  unfold bodyStartup
  rw [quiet_inp]
  split
  · exact onlyRegs_mapRegs (onlyRegs_quiet s) _
  · exact onlyRegs_quiet s

/-- R123: `SERVICE` keeps the position, the latch and `mode`, which the test reads. -/
theorem onlyRegs_bodyAutoZero :
    OnlyRegs s (bodyAutoZero s.quiet)
      { (service s).regs with
        targetPosition := 0
        mode := if s.regs.currentPosition ≤ s.cfg.zeroTolerance ∧ s.regs.notConfigured = false then 2 else s.regs.mode } := by
  obtain ⟨hposition, -, -, -, -, -, -, -, -, -, hmode, -, hconfigured, -⟩ := service_regs_frame s
  rw [← hposition, ← hconfigured, ← hmode]
  exact onlyRegs_served s _

/-- R124: `SERVICE` keeps the position, the home and `mode`. -/
theorem onlyRegs_bodyAutoHome :
    OnlyRegs s (bodyAutoHome s.quiet)
      { (service s).regs with
        minPosition := s.cfg.posOpMin
        maxPosition := s.cfg.posOpMax
        targetPosition := s.regs.homePosition
        mode := if s.regs.currentPosition = s.regs.homePosition then 3 else s.regs.mode } := by
  obtain ⟨hposition, -, -, hhome, -, -, -, -, -, -, hmode, -, -, -⟩ := service_regs_frame s
  rw [← hposition, ← hhome, ← hmode]
  exact onlyRegs_served s _

/-- R125: `SERVICE` keeps the request and `mode`; the target mirrored is the one it left. -/
theorem onlyRegs_bodyRunAfc :
    OnlyRegs s (bodyRunAfc s.quiet)
      { (service s).regs with
        manualTargetPosition := (service s).regs.targetPosition
        mode := if s.regs.manualModeReq = true then 4 else s.regs.mode } := by
  obtain ⟨-, -, -, -, -, -, -, -, -, -, hmode, -, -, hrequest⟩ := service_regs_frame s
  rw [← hrequest, ← hmode]
  exact onlyRegs_served s _

/-- R126 names the return edge by the request being clear, the model by its being set. -/
theorem runManualRegs_eq (r : Regs) :
    runManualRegs r =
      { r with
        targetPosition := r.manualTargetPosition
        mode := if r.manualModeReq = false then 3 else r.mode } := by
  unfold runManualRegs
  cases r.manualModeReq <;> rfl

/-- R126: `SERVICE` keeps the manual target, the request and `mode`. -/
theorem onlyRegs_bodyRunManual :
    OnlyRegs s (bodyRunManual s.quiet)
      { (service s).regs with
        targetPosition := s.regs.manualTargetPosition
        mode := if s.regs.manualModeReq = false then 3 else s.regs.mode } := by
  obtain ⟨-, -, -, -, -, -, -, -, -, -, hmode, hmanual, -, hrequest⟩ := service_regs_frame s
  rw [← hmanual, ← hrequest, ← hmode, ← runManualRegs_eq]
  exact onlyRegs_served s _

/-- R127: the fault is a label, and `mode` alone is written. -/
theorem onlyRegs_bodyUndefined : OnlyRegs s (bodyUndefined s.quiet) { s.regs with mode := 3 } :=
  onlyRegs_mapRegs (onlyRegs_raise (onlyRegs_quiet s) _) _

/-! ### The body that `mode` selects (R120) -/

theorem exec_loop : exec .loop s = .next (loopBody s.quiet) := rfl

theorem loopBody_startup (h : s.regs.mode = 0) : loopBody s = bodyStartup s := by simp [loopBody, h]

theorem loopBody_autoZero (h : s.regs.mode = 1) : loopBody s = bodyAutoZero s := by simp [loopBody, h]

theorem loopBody_autoHome (h : s.regs.mode = 2) : loopBody s = bodyAutoHome s := by simp [loopBody, h]

theorem loopBody_runAfc (h : s.regs.mode = 3) : loopBody s = bodyRunAfc s := by simp [loopBody, h]

theorem loopBody_runManual (h : s.regs.mode = 4) : loopBody s = bodyRunManual s := by simp [loopBody, h]

/-- The undefined values of `mode` (30_encoding.md R90), as a range and one by one. -/
theorem five_le_mode_iff : ∀ m : ModeBits, 5 ≤ m.toNat ↔ m = 5 ∨ m = 6 ∨ m = 7 := by decide

theorem loopBody_undefined (h : 5 ≤ s.regs.mode.toNat) : loopBody s = bodyUndefined s := by
  obtain h5 | h6 | h7 := (five_le_mode_iff _).mp h
  · simp [loopBody, h5]
  · simp [loopBody, h6]
  · simp [loopBody, h7]

/-! ### The transition relation of `mode` (R128) -/

/-- The edges of a `LOOP`: each body's record gives `mode` as its test of the state before the `LOOP`. -/
theorem loopBody_mode :
    (loopBody s.quiet).regs.mode =
      if s.regs.mode = 0 then (if s.inp.bringupDone = true then 1 else 0)
      else if s.regs.mode = 1 then
        (if s.regs.currentPosition ≤ s.cfg.zeroTolerance ∧ s.regs.notConfigured = false then 2 else 1)
      else if s.regs.mode = 2 then (if s.regs.currentPosition = s.regs.homePosition then 3 else 2)
      else if s.regs.mode = 3 then (if s.regs.manualModeReq = true then 4 else 3)
      else if s.regs.mode = 4 then (if s.regs.manualModeReq = false then 3 else 4)
      else 3 := by
  obtain ⟨hm, hb⟩ | ⟨hm, hb⟩ | ⟨hm, hb⟩ | ⟨hm, hb⟩ | ⟨hm, hb⟩ | ⟨hm, hb⟩ := loopBody_cases s.quiet <;>
    rw [hb] <;> rw [quiet_regs] at hm
  · rw [regs_of_onlyRegs (onlyRegs_bodyStartup s), apply_ite Regs.mode]
    simp [hm]
  · rw [regs_of_onlyRegs (onlyRegs_bodyAutoZero s)]
    simp [hm]
  · rw [regs_of_onlyRegs (onlyRegs_bodyAutoHome s)]
    simp [hm]
  · rw [regs_of_onlyRegs (onlyRegs_bodyRunAfc s)]
    simp [hm]
  · rw [regs_of_onlyRegs (onlyRegs_bodyRunManual s)]
    simp [hm]
  · rw [regs_of_onlyRegs (onlyRegs_bodyUndefined s)]
    obtain h5 | h6 | h7 := (five_le_mode_iff _).mp hm
    · simp [h5]
    · simp [h6]
    · simp [h7]

/-- A gated operation keeps `mode` when its effect does. -/
theorem gated_quiet_mode {f : State → State} (hf : (f s.quiet).regs.mode = s.regs.mode) :
    (gated s.quiet f).regs.mode = s.regs.mode := by
  obtain ⟨-, hignored⟩ | ⟨-, htaken⟩ := gated_cases s.quiet f
  · rw [hignored, quiet_regs]
  · rw [htaken, hf]

theorem command_mode {f : Regs → Regs} (hf : (f s.regs).mode = s.regs.mode) : (command s f).regs.mode = s.regs.mode :=
  gated_quiet_mode s hf

theorem stepRegs_mode (c : Cfg) (r : Regs) : (stepRegs c r).mode = r.mode := by
  simp only [stepRegs, apply_ite Regs.mode, ite_self]

theorem capture_mode (ri re fi fe : U16) : (capture ri re fi fe s).regs.mode = s.regs.mode := by
  unfold capture
  dsimp only
  split <;> rfl

/-- R128: "no other operation but `RESET` and `TRAP` writes `mode`". -/
theorem exec_keeps_mode {i : Instr} {t : State} (hword : i.hasTraceWord = true) (hrestart : ¬ (i = .reset ∨ i = .trap))
    (hloop : i ≠ .loop) (h : exec i s = .next t) : t.regs.mode = s.regs.mode := by
  cases i with
  | reset | trap => simp at hrestart
  | loop => exact absurd rfl hloop
  | loopStartup | loopAutoZero | loopAutoHome | loopRunAfc | loopRunManual | loopUndefined _ => cases hword
  | setin b c r => cases h; rfl
  | slowtick => cases h; exact gated_quiet_mode s rfl
  | step => cases h; exact gated_quiet_mode s (stepRegs_mode s.cfg s.regs)
  | capture ri re fi fe => cases h; exact gated_quiet_mode s (capture_mode s.quiet ri re fi fe)
  | cmdSetHome | cmdSelectAfc | cmdSelectManual | cmdSetManual | cmdManualUp | cmdManualDown | cmdUnknown =>
    cases h
    exact command_mode s rfl

end

/-! ### The obligations -/

/-- Settles O5: `SERVICE` writes the state record alone, and what it writes is the sample half followed by the slow-tick half. -/
theorem serviceServesTheSampleThenTheSlowTick : Obligations.ServiceServesTheSampleThenTheSlowTick := by
  intro s
  have hservice := onlyRegs_service s
  rw [service_regs, serveSampleRegs_eq] at hservice
  exact hservice

/-- Settles O7: `SERVICE`, then the writes of `autoZeroRegs`. -/
theorem autoZeroDrivesToZero : Obligations.AutoZeroDrivesToZero :=
  fun s => ⟨_, rfl, onlyRegs_bodyAutoZero s⟩

/-- Settles O9: `SERVICE`, then the writes of `runAfcRegs`. -/
theorem runAfcMirrorsTheTarget : Obligations.RunAfcMirrorsTheTarget :=
  fun s => ⟨_, rfl, onlyRegs_bodyRunAfc s⟩

/-- Settles O10: `SERVICE`, then the writes of `runManualRegs`. -/
theorem runManualTakesTheManualTarget : Obligations.RunManualTakesTheManualTarget :=
  fun s => ⟨_, rfl, onlyRegs_bodyRunManual s⟩

/-- Settles O12: the restarts write 0, a `LOOP` takes the edge of its body, every other operation keeps `mode`. -/
theorem modeFollowsTheTransitionRelation : Obligations.ModeFollowsTheTransitionRelation := by
  intro i s hword
  obtain ⟨t, ht⟩ := exec_completes i s
  refine ⟨t, ht, ?_⟩
  by_cases hrestart : i = .reset ∨ i = .trap
  · rw [if_pos hrestart]
    obtain rfl | rfl := hrestart <;> cases ht <;> rfl
  rw [if_neg hrestart]
  by_cases hloop : i = .loop
  · subst hloop
    cases ht
    rw [if_neg (not_not_intro rfl)]
    exact loopBody_mode s
  · rw [if_pos hloop]
    exact exec_keeps_mode s hword hrestart hloop ht

/-- Settles O4: a `LOOP` and the body that `mode` selects both run from cleared outputs, so the rule of `loopBody` for each value of
`mode` equates them. -/
theorem loopRunsTheBodyThatModeSelects : Obligations.LoopRunsTheBodyThatModeSelects := fun s =>
  ⟨⟨_, exec_loop s⟩,
    fun h => congrArg Host.Outcome.next (loopBody_startup s.quiet h),
    fun h => congrArg Host.Outcome.next (loopBody_autoZero s.quiet h),
    fun h => congrArg Host.Outcome.next (loopBody_autoHome s.quiet h),
    fun h => congrArg Host.Outcome.next (loopBody_runAfc s.quiet h),
    fun h => congrArg Host.Outcome.next (loopBody_runManual s.quiet h),
    fun h _ => congrArg Host.Outcome.next (loopBody_undefined s.quiet ((five_le_mode_iff _).mpr h))⟩

/-- Settles O6: the record that `bodyStartup` leaves, on either side of `bringup_done`. -/
theorem startupAdvancesOnBringup : Obligations.StartupAdvancesOnBringup :=
  fun s => ⟨_, rfl, onlyRegs_bodyStartup s⟩

/-- Settles O11: the body raises its class over cleared outputs and never serves, so there is no kick. -/
theorem undefinedModeIsForcedToRunAfc : Obligations.UndefinedModeIsForcedToRunAfc := by
  intro s v
  exact ⟨bodyUndefined s.quiet, rfl, onlyRegs_bodyUndefined s, rfl, rfl,
    fun h => congrArg Host.Outcome.next (loopBody_undefined s.quiet h)⟩

/-- Settles O13: `SETIN` replaces the levels and clears the outputs. -/
theorem setinChangesTheLevelsAlone : Obligations.SetinChangesTheLevelsAlone :=
  fun _ _ _ _ => ⟨_, rfl, rfl⟩

end Sys2Proof.Proofs.ControlLoop
end

section
/-! The sampler and the post-pulse conversion (41_sampling_postpulse.md R150 to R154). The decibel transform is a scaling of the
distance from the reading to `MAX_READING`, applied to the reading clamped into the declared bounds: its properties are those of the
scaling, which is non-increasing, and of the clamp, which is monotone. -/

namespace Sys2Proof.Proofs.Sampling

open Sys2Proof.Machine Sys2Proof.Config Sys2Proof.Proofs.ControlLoop

/-! ### The clamped reading (R153) -/

/-- Between ordered bounds the clamp is the lattice one. -/
theorem clamp_eq_max_min {v lo hi : Int} (h : lo ≤ hi) : clamp v lo hi = max lo (min v hi) := by
  obtain ⟨_, hc⟩ | ⟨_, _, hc⟩ | ⟨_, _, hc⟩ := clamp_cases v lo hi <;> rw [hc] <;> omega

section
variable (c : Cfg)

/-- A reading clamped into `[MIN_READING, MAX_READING]`. -/
def clampedReading (x : U16) : Nat := max c.minReading.toNat (min x.toNat c.maxReading.toNat)

/-- The clamp in `toDb` is `clampedReading`, because the bounds are in order (00_scope.md R7 (2)). -/
theorem clamp_reading (x : U16) : clamp x.toNat c.minReading.toNat c.maxReading.toNat = clampedReading c x := by
  rw [clamp_eq_max_min (Int.ofNat_le.mpr c.readings_ordered), clampedReading, Nat.cast_max, Nat.cast_min]

theorem minReading_le_clampedReading (x : U16) : c.minReading.toNat ≤ clampedReading c x := le_max_left _ _

theorem clampedReading_mono {x y : U16} (h : x ≤ y) : clampedReading c x ≤ clampedReading c y :=
  max_le_max_left _ (min_le_min_right _ h)

theorem clampedReading_of_le_minReading {x : U16} (h : x ≤ c.minReading) : clampedReading c x = c.minReading.toNat :=
  max_eq_left (min_le_of_left_le h)

theorem clampedReading_of_maxReading_le {x : U16} (h : c.maxReading ≤ x) : clampedReading c x = c.maxReading.toNat :=
  (congrArg _ (min_eq_right h)).trans (max_eq_right c.readings_ordered)

/-! ### The scaling (R153) -/

/-- The distance from `r` to `MAX_READING`, scaled by `DB_MUL / 2^DB_SHIFT` and rounded down. -/
def scaledDrop (r : Nat) : Nat := ((c.maxReading.toNat - r) * c.dbMul.toNat) / 2 ^ c.dbShift

theorem scaledDrop_antitone {r r' : Nat} (h : r ≤ r') : scaledDrop c r' ≤ scaledDrop c r :=
  Nat.div_le_div_right (Nat.mul_le_mul_right _ (Nat.sub_le_sub_left h _))

theorem scaledDrop_maxReading : scaledDrop c c.maxReading.toNat = 0 := by simp [scaledDrop]

/-- 00_scope.md R7 (3) bounds the drop at `MIN_READING`, the largest that a clamped reading has. -/
theorem scaledDrop_clampedReading_le (x : U16) : scaledDrop c (clampedReading c x) ≤ 0xFFFF := by
  have hmin : scaledDrop c c.minReading.toNat ≤ 0xFFFF := by
    rw [scaledDrop, ← Nat.shiftRight_eq_div_pow]
    exact c.db_range
  exact (scaledDrop_antitone c (minReading_le_clampedReading c x)).trans hmin

/-- The value of the transform: neither the saturation nor the narrowing to 16 bits loses anything. -/
theorem toDb_toNat (x : U16) : (toDb c x).toNat = scaledDrop c (clampedReading c x) := by
  have hfits := scaledDrop_clampedReading_le c x
  have hshift : ((c.maxReading.toNat - clampedReading c x) * c.dbMul.toNat) >>> c.dbShift = scaledDrop c (clampedReading c x) :=
    Nat.shiftRight_eq_div_pow _ _
  simp only [toDb, clamp_reading, Int.toNat_sub, hshift]
  rw [Nat.min_eq_left hfits]
  exact Nat.mod_eq_of_lt (Nat.lt_succ_of_le hfits)

/-- The transform sees a reading through its clamped value alone. -/
theorem toDb_congr {x y : U16} (h : clampedReading c x = clampedReading c y) : toDb c x = toDb c y :=
  BitVec.eq_of_toNat_eq (by rw [toDb_toNat, toDb_toNat, h])

end

/-! ### CAPTURE (R150, R151) -/

theorem incWrap16_toNat (v : U16) : (incWrap16 v).toNat = (v.toNat + 1) % 65536 := BitVec.toNat_add v 1

section
variable (s : State) (ri re fi fe : U16)

theorem exec_capture_startup (h : s.regs.mode = 0) : exec (.capture ri re fi fe) s = .next s.quiet :=
  congrArg Host.Outcome.next (gated_startup s.quiet _ h)

theorem exec_capture_running (h : s.regs.mode ≠ 0) :
    exec (.capture ri re fi fe) s = .next (capture ri re fi fe s.quiet) :=
  congrArg Host.Outcome.next (gated_quiet_running s _ h)

/-- Past the gate the snapshot is written, whether or not a reading is the sentinel. -/
theorem onlyRegs_capture : OnlyRegs s (capture ri re fi fe s.quiet) (captureRegs s.cfg ri re fi fe s.regs) := by
  have hwritten := onlyRegs_mapRegs (onlyRegs_quiet s) (captureRegs s.cfg ri re fi fe)
  unfold capture
  dsimp only
  split
  · exact onlyRegs_raise hwritten _
  · exact hwritten

/-- R151: `SENSOR` is reported when an external reading is the sentinel. -/
theorem capture_raised_iff :
    (capture ri re fi fe s.quiet).out.raised = some .sensor ↔ re = s.cfg.extAdcSentinel ∨ fe = s.cfg.extAdcSentinel := by
  unfold capture
  dsimp only
  split
  next hsentinel => exact iff_of_true rfl hsentinel
  next hsentinel => exact iff_of_false nofun hsentinel

end

/-! ### The obligations -/

/-- Settles O23: the value of `toDb` as the scaled drop of the clamped reading, and its bound. -/
theorem toDbIsTheExactAffineTransform : Obligations.ToDbIsTheExactAffineTransform :=
  fun c x => ⟨toDb_toNat c x, scaledDrop_clampedReading_le c x⟩

/-- Settles O24: a larger reading clamps no lower and so drops no more; beyond either bound the clamped reading is the bound. -/
theorem toDbNeverIncreasesAndSaturates : Obligations.ToDbNeverIncreasesAndSaturates := by
  intro c x y
  refine ⟨fun hxy => ?_, fun hlow => ?_, fun hhigh => ?_⟩
  · rw [BitVec.le_def, toDb_toNat, toDb_toNat]
    exact scaledDrop_antitone c (clampedReading_mono c hxy)
  · exact toDb_congr c ((clampedReading_of_le_minReading c hlow).trans (clampedReading_of_le_minReading c (BitVec.le_refl _)).symm)
  · apply BitVec.eq_of_toNat_eq
    rw [toDb_toNat, clampedReading_of_maxReading_le c hhigh]
    exact scaledDrop_maxReading c

/-- Settles O15, on the two sides of the gate: ignored in `Startup`, the writes of `captureRegs` and the report outside it. -/
theorem captureTakesTheSnapshot : Obligations.CaptureTakesTheSnapshot := by
  intro s ri re fi fe
  by_cases hmode : s.regs.mode = 0
  · exact ⟨s.quiet, _, exec_capture_startup s ri re fi fe hmode, incWrap16_toNat _, fun _ => onlyRegs_quiet s,
      fun hrunning => absurd hmode hrunning, iff_of_false nofun fun hreport => hreport.1 hmode⟩
  · exact ⟨capture ri re fi fe s.quiet, _, exec_capture_running s ri re fi fe hmode, incWrap16_toNat _,
      fun hstartup => absurd hstartup hmode, fun _ => onlyRegs_capture s ri re fi fe,
      (capture_raised_iff s ri re fi fe).trans (and_iff_right hmode).symm⟩

/-- Settles O22: the record that `postpulseRegs` writes, its two scaled readings named once. -/
theorem postpulseScalesAndConverts : Obligations.PostpulseScalesAndConverts :=
  fun _ _ => ⟨_, _, rfl, rfl, rfl⟩

end Sys2Proof.Proofs.Sampling
end

section
/-! The direction decision (42_direction_decision.md R171 to R180). A vote is by the signs of two changes that the thresholds keep
from being zero, and the history is read backward from the newest entry: one `DECIDE` puts the sample in front and moves every other
entry one place back. -/

namespace Sys2Proof.Proofs.Direction

open Sys2Proof.Machine Sys2Proof.Config Sys2Proof.Proofs.Sampling

/-! ### The pairwise vote (R173) -/

section
variable (c : Cfg) (n h : HistEntry)

/-- The three tests that leave a pair without a vote: an empty entry, and either change below its threshold. -/
def QuietPair : Prop :=
  h.position = 0 ∨ h.reversePowerDb = 0 ∨ absdiff n.position h.position < c.minPositionChange.toNat
    ∨ absdiff n.reversePowerDb h.reversePowerDb < c.minPowerChange.toNat

/-- Position and reverse power changed in opposite senses. -/
def ChangedOppositely : Prop :=
  (h.position < n.position ∧ n.reversePowerDb < h.reversePowerDb)
    ∨ (n.position < h.position ∧ h.reversePowerDb < n.reversePowerDb)

/-- Position and reverse power changed in the same sense. -/
def ChangedAlike : Prop :=
  (h.position < n.position ∧ h.reversePowerDb < n.reversePowerDb)
    ∨ (n.position < h.position ∧ n.reversePowerDb < h.reversePowerDb)

variable {c n h}

theorem ne_of_threshold_le_absdiff {a b : U16} {threshold : Nat} (hpos : 1 ≤ threshold) (hle : ¬ absdiff a b < threshold) :
    a ≠ b := by
  rintro rfl
  exact hle (absdiff_self a ▸ hpos)

/-- Past the tests both changes are non-zero, because both thresholds are at least 1 (00_scope.md R7 (4)). -/
theorem changes_nonzero (hloud : ¬ QuietPair c n h) : n.position ≠ h.position ∧ n.reversePowerDb ≠ h.reversePowerDb := by
  simp only [QuietPair, not_or] at hloud
  obtain ⟨-, -, hposition, hpower⟩ := hloud
  exact ⟨ne_of_threshold_le_absdiff c.minChanges_pos.1 hposition, ne_of_threshold_le_absdiff c.minChanges_pos.2 hpower⟩

theorem not_changedOppositely_iff (hposition : n.position ≠ h.position) (hpower : n.reversePowerDb ≠ h.reversePowerDb) :
    ¬ ChangedOppositely n h ↔ ChangedAlike n h := by
  rw [← BitVec.toNat_ne_iff_ne] at hposition hpower
  simp only [ChangedOppositely, ChangedAlike, BitVec.lt_def]
  omega

theorem compareVote_of_quietPair (hquiet : QuietPair c n h) : compareVote c n h = .noData := by
  unfold compareVote
  obtain hempty | hsilent | hposition | hpower := hquiet
  · rw [if_pos (.inl hempty)]
  · rw [if_pos (.inr hsilent)]
  · rw [if_pos hposition, ite_self]
  · rw [if_pos hpower, ite_self, ite_self]

/-- Past the tests the vote is up on opposite senses and down otherwise. -/
theorem compareVote_of_not_quietPair (hloud : ¬ QuietPair c n h) :
    (ChangedOppositely n h → compareVote c n h = .up) ∧ (¬ ChangedOppositely n h → compareVote c n h = .down) := by
  simp only [QuietPair, not_or] at hloud
  obtain ⟨hempty, hsilent, hposition, hpower⟩ := hloud
  rw [compareVote, if_neg (not_or.mpr ⟨hempty, hsilent⟩), if_neg hposition, if_neg hpower]
  exact ⟨fun hsigns => if_pos hsigns, fun hsigns => if_neg hsigns⟩

end

/-! ### The vote sum (R174) -/

theorem voteValue_le_two (v : Vote) : voteValue v ≤ 2 := by cases v <;> decide

/-- The entry `k` places behind, as a subtraction in four bits and as one modulo 16. -/
theorem index_behind_eq_mod (a : BitVec 4) {k : Nat} (hk : k ≤ 15) :
    a - BitVec.ofNat 4 k = BitVec.ofNat 4 ((a.toNat + 16 - k) % 16) := by
  bv_omega

/-- The sum over the walk is the sum over its fifteen places. -/
theorem voteSum_eq_sum (c : Cfg) (h : Vector HistEntry 16) (a : BitVec 4) :
    voteSum c h a = ∑ k ∈ Finset.Icc 1 15, voteValue (compareVote c (histRead h a) (histRead h (a - BitVec.ofNat 4 k))) := by
  rw [← Finset.Ico_succ_right_eq_Icc, Finset.sum_Ico_eq_sum_range, voteSum, votes, List.map_map]
  simp only [Nat.add_comm 1]
  rfl

theorem voteSum_le (c : Cfg) (h : Vector HistEntry 16) (a : BitVec 4) : voteSum c h a ≤ 30 := by
  rw [voteSum_eq_sum]
  exact Finset.sum_le_card_nsmul _ _ 2 fun _ _ => voteValue_le_two _

/-! ### The counters, the latch and the target (R175 to R178) -/

section
variable (c : Cfg)

theorem prevDir_eq_up_iff (trigger : U16) (newest : HistEntry) : prevDir trigger newest = .up ↔ newest.position < trigger := by
  simp [prevDir]

theorem invertDir_ne (d : Dir) : invertDir d ≠ d := by cases d <;> decide

/-- R175: the direction and the tie counter of a sum above 15. -/
theorem decision_of_sum_above {sum : Nat} (hsum : 15 < sum) (prev : Dir) (ties : U8) :
    chooseDir c prev sum ties = .down ∧ nextTies c sum ties = 0 :=
  ⟨if_pos hsum, if_pos hsum⟩

/-- R175: the direction and the tie counter of a sum below 15. -/
theorem decision_of_sum_below {sum : Nat} (hsum : sum < 15) (prev : Dir) (ties : U8) :
    chooseDir c prev sum ties = .up ∧ nextTies c sum ties = 0 :=
  have habove : ¬ 15 < sum := Nat.lt_asymm hsum
  ⟨(if_neg habove).trans (if_pos hsum), (if_neg habove).trans (if_pos hsum)⟩

/-- R175: a tie once the counter has reached the cap inverts the direction. -/
theorem decision_of_tie_at_cap (prev : Dir) {ties : U8} (hcap : c.noDecisionCap ≤ ties) :
    chooseDir c prev 15 ties ≠ prev ∧ nextTies c 15 ties = 0 := by
  simp [chooseDir, nextTies, hcap, invertDir_ne]

/-- R175: a tie below the cap keeps the direction and is counted; the count cannot wrap. -/
theorem decision_of_tie_below_cap (prev : Dir) {ties : U8} (hcap : ties < c.noDecisionCap) :
    chooseDir c prev 15 ties = prev ∧ (nextTies c 15 ties).toNat = ties.toNat + 1 := by
  have hbelow : ¬ c.noDecisionCap ≤ ties := BitVec.not_le.mpr hcap
  simp only [chooseDir, nextTies, lt_irrefl, hbelow, if_false, true_and]
  bv_omega

theorem nextInversions_toNat (prev dir : Dir) (inversions : U16) :
    (nextInversions prev dir inversions).toNat = if dir = prev then inversions.toNat else min (inversions.toNat + 1) 0xFFFF := by
  unfold nextInversions
  split
  · rfl
  · rw [incSat_toNat]
    have := inversions.isLt
    simp only [BitVec.toNat_ofNat]
    split <;> omega

theorem nextFastDone_iff (done : Bool) (pulses inversions : U16) :
    nextFastDone c done pulses inversions = true ↔ done = true ∨ c.fastPulseCeiling < pulses
      ∨ (c.fastPulseFloor < pulses ∧ c.fastInversionThreshold ≤ inversions) := by
  simp [nextFastDone, or_assoc]

/-- `sat16` as the lattice clamp into sixteen bits. -/
theorem sat16_toNat_eq_max_min (v : Int) : ((sat16 v).toNat : Int) = max 0 (min v 0xFFFF) :=
  (sat16_toNat v).trans (clamp_eq_max_min (by decide))

/-- R178: upward the target saturates at the top and does not wrap. -/
theorem stepTarget_up_toNat (current delta : U16) :
    (stepTarget current delta .up).toNat = min (current.toNat + delta.toNat) 0xFFFF := by
  have hsat := sat16_toNat_eq_max_min (current.toNat + delta.toNat)
  rw [stepTarget]
  omega

/-- R178: downward the target saturates at 0. -/
theorem stepTarget_down_toNat (current delta : U16) : (stepTarget current delta .down).toNat = current.toNat - delta.toNat := by
  have hsat := sat16_toNat_eq_max_min (current.toNat - delta.toNat)
  rw [stepTarget]
  omega

end

/-! ### The history read backward from the newest entry (R180) -/

/-- The entry `k` places behind the newest. -/
def entryBehind (r : Regs) (k : Nat) : HistEntry := histRead r.hist (r.activeIndex - BitVec.ofNat 4 k)

theorem decideSample_hist (c : Cfg) (r : Regs) (e : HistEntry) :
    (decideSample c r e).hist = histWrite r.hist (r.activeIndex + 1) e := decideRegs_hist c _

theorem decideSample_activeIndex (c : Cfg) (r : Regs) (e : HistEntry) :
    (decideSample c r e).activeIndex = r.activeIndex + 1 := decideRegs_activeIndex c _

/-- The sample is in front. -/
theorem entryBehind_decideSample_zero (c : Cfg) (r : Regs) (e : HistEntry) : entryBehind (decideSample c r e) 0 = e := by
  rw [entryBehind, decideSample_hist, decideSample_activeIndex, BitVec.ofNat_eq_ofNat, BitVec.sub_zero, histRead_histWrite_same]

/-- Every other entry is one place further back; the one that was fifteen behind is overwritten. -/
theorem entryBehind_decideSample_succ (c : Cfg) (r : Regs) (e : HistEntry) {k : Nat} (hk : k < 15) :
    entryBehind (decideSample c r e) (k + 1) = entryBehind r k := by
  have hplace : r.activeIndex + 1 - BitVec.ofNat 4 (k + 1) = r.activeIndex - BitVec.ofNat 4 k := by bv_omega
  have hkept : r.activeIndex - BitVec.ofNat 4 k ≠ r.activeIndex + 1 := by bv_omega
  rw [entryBehind, decideSample_hist, decideSample_activeIndex, hplace, histRead_histWrite_other _ _ _ _ hkept, entryBehind]

theorem activeIndex_foldl (c : Cfg) (r : Regs) (samples : List HistEntry) :
    (samples.foldl (decideSample c) r).activeIndex = r.activeIndex + BitVec.ofNat 4 samples.length := by
  induction samples generalizing r with
  | nil => simp
  | cons e samples ih =>
    rw [List.foldl_cons, ih, decideSample_activeIndex, List.length_cons]
    bv_omega

/-- After a run of samples the places hold the samples, newest first, and behind them the entries from before the run. -/
theorem entryBehind_foldl (c : Cfg) (r : Regs) (samples : List HistEntry) {k : Nat} (hk : k < 16) :
    entryBehind (samples.foldl (decideSample c) r) k = samples.reverse.getD k (entryBehind r (k - samples.length)) := by
  induction samples using List.reverseRecOn generalizing k with
  | nil => rfl
  | append_singleton samples e ih =>
    rw [List.foldl_concat, List.reverse_concat]
    cases k with
    | zero => exact entryBehind_decideSample_zero c _ e
    | succ k =>
      rw [entryBehind_decideSample_succ c _ e (by omega), ih (by omega), List.getD_cons_succ, List.length_append,
        List.length_singleton, Nat.add_sub_add_right]

/-! ### The obligations -/

/-- Settles O29: the places of `entryBehind_foldl` within the run of samples and behind it. -/
theorem historyIsAFifoOfSixteenSamples : Obligations.HistoryIsAFifoOfSixteenSamples := by
  intro c r samples t
  have hindex : t.activeIndex = r.activeIndex + BitVec.ofNat 4 samples.length := activeIndex_foldl c r samples
  refine ⟨hindex, fun k hk => ?_⟩
  have hentry : histRead t.hist (t.activeIndex - BitVec.ofNat 4 k) = samples.reverse.getD k (entryBehind r (k - samples.length)) :=
    entryBehind_foldl c r samples hk
  refine ⟨fun hrun => ?_, fun holder => ?_⟩
  · rw [hentry, ← List.getElem?_reverse hrun]
    simp [hrun]
  · have hplace : r.activeIndex - BitVec.ofNat 4 (k - samples.length) = t.activeIndex - BitVec.ofNat 4 k := by
      rw [hindex]
      bv_omega
    rw [hentry, List.getD_eq_default _ _ (by simpa using holder), entryBehind, hplace]

/-- Settles O26: past the tests the vote is by the signs, and the two senses exclude each other because neither change is zero. -/
theorem compareVotesByTheSignsOfBothChanges : Obligations.CompareVotesByTheSignsOfBothChanges := by
  intro c n h
  refine ⟨compareVote_of_quietPair, fun (hloud : ¬ QuietPair c n h) => ?_⟩
  obtain ⟨hposition, hpower⟩ := changes_nonzero hloud
  have hsenses := not_changedOppositely_iff hposition hpower
  obtain ⟨hup, hdown⟩ := compareVote_of_not_quietPair hloud
  by_cases hsigns : ChangedOppositely n h
  · rw [hup hsigns]
    exact ⟨iff_of_true rfl hsigns, iff_of_false nofun fun halike => hsenses.mpr halike hsigns⟩
  · rw [hdown hsigns]
    exact ⟨iff_of_false nofun hsigns, iff_of_true rfl (hsenses.mp hsigns)⟩

/-- Settles O27: the fifteen places of the walk, each index modulo 16, and the bound of 2 on each value. -/
theorem voteSumAddsFifteenComparisons : Obligations.VoteSumAddsFifteenComparisons := by
  intro c h a
  refine ⟨?_, voteSum_le c h a⟩
  rw [voteSum_eq_sum]
  refine Finset.sum_congr rfl fun k hk => ?_
  rw [index_behind_eq_mod a (Finset.mem_Icc.mp hk).2]
  rfl

/-- Settles O28: the direction and the tie counter by the sum, then the fields that follow from them, and the frame. -/
theorem decideFollowsTheSevenSteps : Obligations.DecideFollowsTheSevenSteps := by
  intro c r t a sum delta
  have hties : t.noDecisionCounter = nextTies c sum r.noDecisionCounter := decideRegs_ties c r
  have hdir : decideDir c r = chooseDir c (decidePrev r) sum r.noDecisionCounter := rfl
  have hinversions : t.inversionCounter = decideInversions c r := decideRegs_inversions c r
  have hfast : t.fastAfcDone = decideFast c r := decideRegs_fastAfcDone c r
  have htarget : t.targetPosition = stepTarget r.currentPosition delta (decideDir c r) := decideRegs_target c r
  refine ⟨decidePrev r, decideDir c r, prevDir_eq_up_iff _ _, rfl, ?_, fun j hj => ?_, ?_, ?_, ?_, ?_, ?_, ?_, ?_, ?_,
    decideRegs_frame c r⟩
  · exact histRead_histWrite_same r.hist a (newEntry r)
  · exact histRead_histWrite_other r.hist a j (newEntry r) hj
  · intro habove
    rw [hties, hdir]
    exact decision_of_sum_above c habove (decidePrev r) r.noDecisionCounter
  · intro hbelow
    rw [hties, hdir]
    exact decision_of_sum_below c hbelow (decidePrev r) r.noDecisionCounter
  · intro htie hcap
    rw [hties, hdir, htie]
    exact decision_of_tie_at_cap c (decidePrev r) hcap
  · intro htie hcap
    rw [hties, hdir, htie]
    exact decision_of_tie_below_cap c (decidePrev r) hcap
  · rw [hinversions]
    exact nextInversions_toNat (decidePrev r) (decideDir c r) r.inversionCounter
  · rw [hfast, hinversions]
    exact nextFastDone_iff c r.fastAfcDone r.pulsesOnThisRun (decideInversions c r)
  · intro hup
    rw [htarget, hup]
    exact stepTarget_up_toNat r.currentPosition delta
  · intro hdown
    rw [htarget, hdown]
    exact stepTarget_down_toNat r.currentPosition delta

end Sys2Proof.Proofs.Direction
end

section
/-! The actuator (43_actuator.md R200 to R205). One `STEP` moves the position along `moveToward` and leaves the clamped target
where it was, so repeated `STEP`s shorten the distance to a fixed target by one each until it is 0. -/

namespace Sys2Proof.Proofs.Actuator

open Sys2Proof.Machine Sys2Proof.Config Sys2Proof.Proofs.ControlLoop Sys2Proof.Proofs.Sampling

/-! ### One unit toward a target (R202) -/

/-- The position one unit nearer to the target, or the target itself. -/
def moveToward (position target : U16) : U16 :=
  if target < position then position - 1 else if position < target then position + 1 else position

theorem absdiff_eq_sub_add_sub (a b : U16) : absdiff a b = (a.toNat - b.toNat) + (b.toNat - a.toNat) := by
  simp only [absdiff, BitVec.le_def]
  split <;> omega

theorem eq_of_absdiff_eq_zero {a b : U16} (h : absdiff a b = 0) : a = b := by
  rw [absdiff_eq_sub_add_sub] at h
  exact BitVec.eq_of_toNat_eq (by omega)

/-- The move goes to the point nearest the target among those at most one unit away, and "can neither underflow nor overflow". -/
theorem moveToward_toNat (position target : U16) :
    (moveToward position target).toNat = max (position.toNat - 1) (min target.toNat (position.toNat + 1)) := by
  unfold moveToward
  split
  next hdown => bv_omega
  next hnotDown =>
    split
    next hup => bv_omega
    next hnotUp => bv_omega

@[simp] theorem moveToward_self (target : U16) : moveToward target target = target := by simp [moveToward]

theorem absdiff_moveToward (position target : U16) :
    absdiff (moveToward position target) target = absdiff position target - 1 := by
  rw [absdiff_eq_sub_add_sub, absdiff_eq_sub_add_sub, moveToward_toNat]
  omega

/-- A position that is inside the bounds, both included. -/
def Within (lo hi position : U16) : Prop := lo ≤ position ∧ position ≤ hi

/-- A move between two points of a range stays in the range. -/
theorem within_moveToward {lo hi position target : U16} (hposition : Within lo hi position) (htarget : Within lo hi target) :
    Within lo hi (moveToward position target) := by
  simp only [Within, BitVec.le_def, moveToward_toNat] at *
  omega

/-! ### The clamped target (R201) -/

/-- Between ordered bounds the clamped target is the lattice clamp. -/
theorem clampedTarget_toNat {r : Regs} (hbounds : r.minPosition ≤ r.maxPosition) :
    (clampedTarget r).toNat = max r.minPosition.toNat (min r.targetPosition.toNat r.maxPosition.toNat) := by
  have hclamp := clamp16_toNat r.targetPosition.toNat r.minPosition r.maxPosition
  rw [clamp_eq_max_min (Int.ofNat_le.mpr hbounds)] at hclamp
  rw [clampedTarget]
  omega

theorem within_clampedTarget {r : Regs} (hbounds : r.minPosition ≤ r.maxPosition) :
    Within r.minPosition r.maxPosition (clampedTarget r) := by
  have hvalue := clampedTarget_toNat hbounds
  rw [BitVec.le_def] at hbounds
  rw [Within, BitVec.le_def, BitVec.le_def]
  omega

/-! ### The record that STEP leaves (R202) -/

section
variable (c : Cfg) (r : Regs)

/-- `STEP` writes three fields and no other; the target it writes back is the clamped one. -/
theorem stepRegs_eq :
    stepRegs c r =
      { r with
        targetPosition := clampedTarget r
        currentPosition := moveToward r.currentPosition (clampedTarget r)
        timeStepsStopped :=
          if r.currentPosition ≠ clampedTarget r then 0 else incSat r.timeStepsStopped c.lowPowerThreshold } := by
  unfold stepRegs moveToward
  dsimp only
  split
  next hdown => rw [if_pos ((BitVec.ne_of_lt hdown).symm)]
  next hnotDown =>
    split
    next hup => rw [if_pos (BitVec.ne_of_lt hup)]
    next hnotUp =>
      have hthere : r.currentPosition = clampedTarget r :=
        BitVec.le_antisymm (BitVec.not_lt.mp hnotDown) (BitVec.not_lt.mp hnotUp)
      rw [if_neg (not_not_intro hthere)]

@[simp] theorem stepRegs_target : (stepRegs c r).targetPosition = clampedTarget r := by rw [stepRegs_eq]

@[simp] theorem stepRegs_minPosition : (stepRegs c r).minPosition = r.minPosition := by rw [stepRegs_eq]

@[simp] theorem stepRegs_maxPosition : (stepRegs c r).maxPosition = r.maxPosition := by rw [stepRegs_eq]

@[simp] theorem stepRegs_position :
    (stepRegs c r).currentPosition = moveToward r.currentPosition (clampedTarget r) := by rw [stepRegs_eq]

variable {r}

theorem stepRegs_stopped_of_at_target (hthere : r.currentPosition = clampedTarget r) :
    (stepRegs c r).timeStepsStopped = incSat r.timeStepsStopped c.lowPowerThreshold := by
  rw [stepRegs_eq]
  exact if_neg (not_not_intro hthere)

/-- The target written back is already inside the bounds, so clamping it again changes nothing. -/
theorem clampedTarget_stepRegs (hbounds : r.minPosition ≤ r.maxPosition) :
    clampedTarget (stepRegs c r) = clampedTarget r := by
  have hagain : (stepRegs c r).minPosition ≤ (stepRegs c r).maxPosition := by simpa using hbounds
  apply BitVec.eq_of_toNat_eq
  rw [clampedTarget_toNat hagain, stepRegs_target, stepRegs_minPosition, stepRegs_maxPosition, clampedTarget_toNat hbounds]
  omega

end

/-! ### STEP on the state (R200, R202) -/

@[simp] theorem stepTick_quiet_regs (s : State) : (stepTick s.quiet).regs = stepRegs s.cfg s.regs := rfl

section
variable {s : State}

theorem exec_step_startup (h : s.regs.mode = 0) : exec .step s = .next s.quiet :=
  congrArg Host.Outcome.next (gated_startup s.quiet _ h)

theorem exec_step_running (h : s.regs.mode ≠ 0) : exec .step s = .next (stepTick s.quiet) :=
  congrArg Host.Outcome.next (gated_quiet_running s _ h)

theorem execAll_cons {i : Instr} {t : State} (h : exec i s = .next t) (is : List Instr) : execAll (i :: is) s = execAll is t := by
  rw [execAll, h]

end

/-! ### Repeated STEPs (R205) -/

/-- A running core under the configuration `c` that is `distance` units away from the clamped target `target`. -/
structure Chasing (c : Cfg) (target : U16) (distance : Nat) (s : State) : Prop where
  running : s.regs.mode ≠ 0
  ordered : s.regs.minPosition ≤ s.regs.maxPosition
  config : s.cfg = c
  aim : clampedTarget s.regs = target
  away : absdiff s.regs.currentPosition target = distance

section
variable {c : Cfg} {target : U16} {distance : Nat} {s : State}

theorem Chasing.after_step (h : Chasing c target distance s) : Chasing c target (distance - 1) (stepTick s.quiet) where
  running := by
    rw [stepTick_quiet_regs, stepRegs_mode]
    exact h.running
  ordered := by simpa using h.ordered
  config := h.config
  aim := (clampedTarget_stepRegs s.cfg h.ordered).trans h.aim
  away := by rw [stepTick_quiet_regs, stepRegs_position, h.aim, absdiff_moveToward, h.away]

/-- Each `STEP` takes one unit off the distance. -/
theorem Chasing.execAll_replicate_step (h : Chasing c target distance s) (k : Nat) :
    ∃ u, execAll (List.replicate k .step) s = .next u ∧ Chasing c target (distance - k) u := by
  induction k generalizing s distance with
  | zero => exact ⟨s, rfl, h⟩
  | succ k ih =>
    obtain ⟨u, hrun, hu⟩ := ih h.after_step
    refine ⟨u, ?_, ?_⟩
    · rw [List.replicate_succ, execAll_cons (exec_step_running h.running), hrun]
    · rwa [Nat.sub_sub, Nat.add_comm 1 k] at hu

theorem Chasing.position_eq (h : Chasing c target 0 s) : s.regs.currentPosition = target := eq_of_absdiff_eq_zero h.away

/-- At the target a `STEP` leaves the position and counts one stopped tick, up to the threshold. -/
theorem Chasing.step_at_target (h : Chasing c target 0 s) :
    ∃ v, exec .step s = .next v ∧ v.regs.currentPosition = target
      ∧ v.regs.timeStepsStopped = incSat s.regs.timeStepsStopped c.lowPowerThreshold := by
  have hthere : s.regs.currentPosition = clampedTarget s.regs := h.position_eq.trans h.aim.symm
  refine ⟨_, exec_step_running h.running, ?_, ?_⟩
  · rw [stepTick_quiet_regs, stepRegs_position, h.aim, h.position_eq, moveToward_self]
  · rw [stepTick_quiet_regs, stepRegs_stopped_of_at_target s.cfg hthere, h.config]

end

/-! ### The PWM lookup (R203, R204) -/

theorem pwmIndex_toNat (position : U16) (k : Fin 4) :
    (pwmIndex position k).toNat = (position.toNat % 128 + 32 * k.val) % 128 := by
  simp [pwmIndex]

/-- The low-current table from the threshold on, the comparison made on the numbers. -/
theorem pwmTable_eq (c : Cfg) (r : Regs) :
    pwmTable c r = if c.lowPowerThreshold.toNat ≤ r.timeStepsStopped.toNat then c.pwml else c.pwmh := by
  simp only [pwmTable, powerModeLow, decide_eq_true_eq, BitVec.le_def]

/-! ### The obligations -/

/-- Settles O20: a `STEP` keeps the range because both the position and the clamped target are in it; the distance to the target
shrinks by one per `STEP`, and at distance 0 the next `STEP` counts a stopped tick. -/
theorem repeatedStepsReachTheClampedTarget : Obligations.RepeatedStepsReachTheClampedTarget := by
  intro s hrunning hbounds target
  have htarget := within_clampedTarget hbounds
  refine ⟨⟨_, exec_step_running hrunning, ?_, ?_, fun hlow hhigh => ?_⟩, fun k => ?_⟩
  · simpa using htarget.1
  · simpa using htarget.2
  · simpa [Within] using within_moveToward ⟨hlow, hhigh⟩ htarget
  · have hstart : Chasing s.cfg target (absdiff s.regs.currentPosition target) s := ⟨hrunning, hbounds, rfl, rfl, rfl⟩
    obtain ⟨u, hrun, hu⟩ := hstart.execAll_replicate_step k
    refine ⟨u, hrun, fun hclose => ?_⟩
    rw [Nat.sub_eq_zero_of_le hclose] at hu
    obtain ⟨v, hstep, hposition, hstopped⟩ := hu.step_at_target
    exact ⟨hu.position_eq, v, hstep, hposition, by rw [hstopped, incSat_toNat]⟩

/-- Settles O19, on the two sides of the gate. -/
theorem stepMovesOneUnitTowardTheClampedTarget : Obligations.StepMovesOneUnitTowardTheClampedTarget := by
  intro s
  have htarget := clamp16_toNat s.regs.targetPosition.toNat s.regs.minPosition s.regs.maxPosition
  by_cases hmode : s.regs.mode = 0
  · exact ⟨s.quiet, clampedTarget s.regs, exec_step_startup hmode, htarget, fun _ => onlyRegs_quiet s,
      fun hrunning => absurd hmode hrunning⟩
  · refine ⟨stepTick s.quiet, clampedTarget s.regs, exec_step_running hmode, htarget, fun hstartup => absurd hstartup hmode,
      fun _ => ?_⟩
    have hframe := onlyRegs_mapRegs (onlyRegs_quiet s) (stepRegs s.cfg)
    rw [stepRegs_eq] at hframe
    exact hframe

/-- Settles O21: the index and the table, each as its rule gives it. -/
theorem pwmDutiesComeFromOneTable : Obligations.PwmDutiesComeFromOneTable := by
  intro c r k
  simp only [pwmDuty, pwmRead, pwmTable_eq, pwmIndex_toNat]

end Sys2Proof.Proofs.Actuator
end

section
/-! The slow tick, the cooldown and the communication latch (44_cooldown_status.md R220 to R227). `Blend` moves from home toward the hot
position by one truncated distance. The idle count and the communication latch are followed through every operation together: a served
slow tick updates them, a taken `CAPTURE` clears the count, and nothing else but a restart writes them. -/

namespace Sys2Proof.Proofs.SlowTick

open Sys2Proof.Machine Sys2Proof.Config Sys2Proof.Proofs.ControlLoop Sys2Proof.Proofs.Sampling Sys2Proof.Proofs.Actuator

/-! ### The scaled distance (R226) -/

/-- A distance multiplied by `m / 2^frac`, truncated. -/
def scaledDistance (frac distance m : Nat) : Nat := distance * m / 2 ^ frac

theorem scaledDistance_le {frac m : Nat} (hm : m ≤ 2 ^ frac) (distance : Nat) : scaledDistance frac distance m ≤ distance :=
  Nat.div_le_of_le_mul (Nat.mul_comm distance m ▸ Nat.mul_le_mul_right distance hm)

theorem scaledDistance_mono {m m' : Nat} (h : m' ≤ m) (frac distance : Nat) :
    scaledDistance frac distance m' ≤ scaledDistance frac distance m :=
  Nat.div_le_div_right (Nat.mul_le_mul_left distance h)

@[simp] theorem scaledDistance_full (frac distance : Nat) : scaledDistance frac distance (2 ^ frac) = distance :=
  Nat.mul_div_cancel distance (Nat.two_pow_pos frac)

@[simp] theorem scaledDistance_zero (frac distance : Nat) : scaledDistance frac distance 0 = 0 := by simp [scaledDistance]

/-! ### Blend (R226) -/

section
variable {frac : Nat} {hot home m : U16}

/-- On the upper side of home the blend adds the scaled distance; the sum fits, as it stops at `hot`. -/
theorem blend_above_toNat (hm : m.toNat ≤ 2 ^ frac) (hside : home ≤ hot) :
    (blend frac hot home m).toNat = home.toNat + scaledDistance frac (hot.toNat - home.toNat) m.toNat := by
  have hle := scaledDistance_le hm (hot.toNat - home.toNat)
  rw [blend, if_pos hside, Nat.shiftRight_eq_div_pow, ← scaledDistance, BitVec.toNat_ofNat]
  rw [BitVec.le_def] at hside
  exact Nat.mod_eq_of_lt (by omega)

/-- On the lower side of home the blend subtracts the scaled distance. -/
theorem blend_below_toNat (hside : hot < home) :
    (blend frac hot home m).toNat = home.toNat - scaledDistance frac (home.toNat - hot.toNat) m.toNat := by
  rw [blend, if_neg (BitVec.not_le.mpr hside), Nat.shiftRight_eq_div_pow, ← scaledDistance, BitVec.toNat_ofNat]
  exact Nat.mod_eq_of_lt (by omega)

/-- The blend stops at `hot`, above home. -/
theorem blend_le_hot (hm : m.toNat ≤ 2 ^ frac) (hside : home ≤ hot) : blend frac hot home m ≤ hot := by
  have hle := scaledDistance_le hm (hot.toNat - home.toNat)
  rw [BitVec.le_def, blend_above_toNat hm hside]
  rw [BitVec.le_def] at hside
  omega

/-- The blend stops at `hot`, below home. -/
theorem hot_le_blend (hm : m.toNat ≤ 2 ^ frac) (hside : hot < home) : hot ≤ blend frac hot home m := by
  have hle := scaledDistance_le hm (home.toNat - hot.toNat)
  rw [BitVec.le_def, blend_below_toNat hside]
  rw [BitVec.lt_def] at hside
  omega

/-- On either side the blend is as far from home as the scaled distance of `hot`. -/
theorem absdiff_blend_home (hm : m.toNat ≤ 2 ^ frac) :
    absdiff (blend frac hot home m) home = scaledDistance frac (absdiff hot home) m.toNat := by
  rw [absdiff_eq_sub_add_sub, absdiff_eq_sub_add_sub hot home]
  by_cases hside : home ≤ hot
  · rw [blend_above_toNat hm hside, Nat.sub_eq_zero_of_le (BitVec.le_def.mp hside), Nat.add_zero]
    omega
  · have hbelow : hot < home := BitVec.not_le.mp hside
    have hle := scaledDistance_le hm (home.toNat - hot.toNat)
    rw [blend_below_toNat hbelow, Nat.sub_eq_zero_of_le (BitVec.lt_def.mp hbelow).le, Nat.zero_add]
    omega

theorem blend_full (hm : m.toNat = 2 ^ frac) : blend frac hot home m = hot := by
  apply BitVec.eq_of_toNat_eq
  by_cases hside : home ≤ hot
  · rw [blend_above_toNat hm.le hside, hm, scaledDistance_full, Nat.add_sub_cancel' (BitVec.le_def.mp hside)]
  · have hbelow : hot < home := BitVec.not_le.mp hside
    rw [blend_below_toNat hbelow, hm, scaledDistance_full, Nat.sub_sub_self (BitVec.lt_def.mp hbelow).le]

theorem blend_zero : blend frac hot home 0 = home :=
  eq_of_absdiff_eq_zero ((absdiff_blend_home (Nat.zero_le _)).trans (scaledDistance_zero _ _))

end

/-! ### SLOWTICK (R220) -/

section
variable (s : State)

theorem exec_slowtick_startup (h : s.regs.mode = 0) : exec .slowtick s = .next s.quiet :=
  congrArg Host.Outcome.next (gated_startup s.quiet _ h)

theorem exec_slowtick_running (h : s.regs.mode ≠ 0) : exec .slowtick s = .next (slowtick s.quiet) :=
  congrArg Host.Outcome.next (gated_quiet_running s _ h)

theorem onlyRegs_slowtick : OnlyRegs s (slowtick s.quiet) { s.regs with slowTickFlag := true } :=
  onlyRegs_mapRegs (onlyRegs_quiet s) _

end

/-- Raising a raised flag writes nothing. -/
theorem raise_slowTickFlag_of_set {r : Regs} (h : r.slowTickFlag = true) : { r with slowTickFlag := true } = r := by
  rw [← h]

/-! ### SLOWSVC (R222 to R225, R227) -/

section
variable (c : Cfg) (i : Inputs) (r : Regs)

theorem cooling_iff : cooling c r = true ↔ c.cooldownStartThreshold.toNat ≤ (nextIdle c r).toNat := by
  rw [cooling, decide_eq_true_iff, BitVec.le_def]

theorem nextIdle_toNat :
    (nextIdle c r).toNat =
      if r.timeOffCounter.toNat < c.timeOffCeiling.toNat then r.timeOffCounter.toNat + 1 else r.timeOffCounter.toNat :=
  incSat_toNat _ _

/-- R224: the hot position is taken on the tick that brings the count to the threshold. -/
theorem nextHot_eq :
    nextHot c r =
      if r.timeOffCounter.toNat < c.cooldownStartThreshold.toNat ∧ c.cooldownStartThreshold.toNat ≤ (nextIdle c r).toNat then
        r.currentPosition
      else r.afcHotPosition := by
  simp only [nextHot, BitVec.lt_def, BitVec.le_def]

theorem coolIndex_eq (idle : U32) : coolIndex c idle = BitVec.ofNat 8 (min (idle.toNat / 2 ^ c.cooldownShift) 255) := by
  rw [coolIndex, Nat.shiftRight_eq_div_pow]

/-- R227: a rising reset level clears the latch, then a reported fault sets it. -/
theorem nextCommFault_eq :
    nextCommFault i r = (i.commFaultIn || (r.commFault && !(i.faultResetIn && !r.faultResetPrev))) := by
  unfold nextCommFault
  cases i.commFaultIn
  · cases i.faultResetIn && !r.faultResetPrev <;> simp
  · rfl

/-- R223: at the threshold the served tick clears the latch of fast mode and its two counters. -/
theorem slowsvcRegs_of_cooling (h : cooling c r = true) :
    (slowsvcRegs c i r).fastAfcDone = false ∧ (slowsvcRegs c i r).pulsesOnThisRun = 0
      ∧ (slowsvcRegs c i r).inversionCounter = 0 := ⟨if_pos h, if_pos h, if_pos h⟩

theorem slowsvcRegs_of_not_cooling (h : ¬ cooling c r = true) :
    (slowsvcRegs c i r).fastAfcDone = r.fastAfcDone ∧ (slowsvcRegs c i r).pulsesOnThisRun = r.pulsesOnThisRun
      ∧ (slowsvcRegs c i r).inversionCounter = r.inversionCounter := ⟨if_neg h, if_neg h, if_neg h⟩

/-- R225: in mode 3, past the threshold, the served tick aims at the blend of the new idle count. -/
theorem slowsvcRegs_target_of_cooling (h : cooling c r = true) (hmode : r.mode = 3) :
    (slowsvcRegs c i r).targetPosition = cooldownTarget c r := if_pos ⟨h, hmode⟩

theorem slowsvcRegs_target_of_not_cooling (h : ¬ (cooling c r = true ∧ r.mode = 3)) :
    (slowsvcRegs c i r).targetPosition = r.targetPosition := if_neg h

end

/-! ### The idle count and the communication latch through every operation -/

/-- The idle count (10_state.md R32), the communication latch and the remembered reset level (R39). -/
structure TickFields where
  idle : U32
  commFault : Bool
  faultResetPrev : Bool

def tickFields (r : Regs) : TickFields := ⟨r.timeOffCounter, r.commFault, r.faultResetPrev⟩

/-- The three fields after a served slow tick (R222, R227). -/
def servedFields (c : Cfg) (i : Inputs) (f : TickFields) : TickFields where
  idle := incSat f.idle c.timeOffCeiling
  commFault := i.commFaultIn || (f.commFault && !(i.faultResetIn && !f.faultResetPrev))
  faultResetPrev := i.faultResetIn

/-- A `LOOP` from this state serves a slow tick: the flag is set and `mode` is one whose body calls `SERVICE` (R120, R121). -/
abbrev ServesTick (s : State) : Prop :=
  1 ≤ s.regs.mode.toNat ∧ s.regs.mode.toNat ≤ 4 ∧ s.regs.slowTickFlag = true

theorem tickFields_slowsvcRegs (c : Cfg) (i : Inputs) (r : Regs) :
    tickFields (slowsvcRegs c i r) = servedFields c i (tickFields r) :=
  congrArg (TickFields.mk (nextIdle c r) · i.faultResetIn) (nextCommFault_eq i r)

theorem tickFields_serveSampleRegs (c : Cfg) (r : Regs) : tickFields (serveSampleRegs c r) = tickFields r := by
  obtain ⟨-, -, -, -, -, -, -, -, -, -, -, hidle, -, -, -, -, -, hcomm, hprev, -⟩ := serveSampleRegs_frame c r
  rw [tickFields, hidle, hcomm, hprev, tickFields]

theorem tickFields_stepRegs (c : Cfg) (r : Regs) : tickFields (stepRegs c r) = tickFields r := by
  rw [stepRegs_eq]
  rfl

section
variable (s : State)

theorem tickFields_service :
    tickFields (service s).regs =
      if s.regs.slowTickFlag = true then servedFields s.cfg s.inp (tickFields s.regs) else tickFields s.regs := by
  rw [service_regs, apply_ite tickFields, tickFields_slowsvcRegs, ← tickFields_serveSampleRegs s.cfg s.regs]
  rfl

/-- The four bodies that serve write none of the three fields after `SERVICE`. -/
theorem tickFields_loopBody_of_serving (h1 : 1 ≤ s.regs.mode.toNat) (h4 : s.regs.mode.toNat ≤ 4) :
    tickFields (loopBody s.quiet).regs = tickFields (service s).regs := by
  obtain ⟨hm, hb⟩ | ⟨-, hb⟩ | ⟨-, hb⟩ | ⟨-, hb⟩ | ⟨-, hb⟩ | ⟨hm, hb⟩ := loopBody_cases s.quiet <;> rw [hb]
  · rw [quiet_regs] at hm
    simp [hm] at h1
  · rw [regs_of_onlyRegs (onlyRegs_bodyAutoZero s)]; rfl
  · rw [regs_of_onlyRegs (onlyRegs_bodyAutoHome s)]; rfl
  · rw [regs_of_onlyRegs (onlyRegs_bodyRunAfc s)]; rfl
  · rw [regs_of_onlyRegs (onlyRegs_bodyRunManual s)]; rfl
  · rw [quiet_regs] at hm
    omega

/-- The two bodies that do not serve write none of the three fields. -/
theorem tickFields_loopBody_of_not_serving (h : ¬ (1 ≤ s.regs.mode.toNat ∧ s.regs.mode.toNat ≤ 4)) :
    tickFields (loopBody s.quiet).regs = tickFields s.regs := by
  by_cases hstartup : s.regs.mode = 0
  · rw [loopBody_startup s.quiet hstartup, regs_of_onlyRegs (onlyRegs_bodyStartup s), apply_ite tickFields]
    exact ite_self _
  · have hpos : s.regs.mode.toNat ≠ 0 := fun hzero => hstartup (BitVec.eq_of_toNat_eq hzero)
    rw [loopBody_undefined s.quiet (by rw [quiet_regs]; omega), regs_of_onlyRegs (onlyRegs_bodyUndefined s)]
    rfl

theorem tickFields_loopBody_of_servesTick (h : ServesTick s) :
    tickFields (loopBody s.quiet).regs = servedFields s.cfg s.inp (tickFields s.regs) := by
  obtain ⟨h1, h4, hflag⟩ := h
  rw [tickFields_loopBody_of_serving s h1 h4, tickFields_service, if_pos hflag]

theorem tickFields_loopBody_of_not_servesTick (h : ¬ ServesTick s) : tickFields (loopBody s.quiet).regs = tickFields s.regs := by
  by_cases hserving : 1 ≤ s.regs.mode.toNat ∧ s.regs.mode.toNat ≤ 4
  · have hflag : ¬ s.regs.slowTickFlag = true := fun hset => h ⟨hserving.1, hserving.2, hset⟩
    rw [tickFields_loopBody_of_serving s hserving.1 hserving.2, tickFields_service, if_neg hflag]
  · exact tickFields_loopBody_of_not_serving s hserving

/-- A taken `CAPTURE` clears the idle count and keeps the other two fields (R150). -/
theorem tickFields_capture (ri re fi fe : U16) :
    tickFields (capture ri re fi fe s.quiet).regs = { tickFields s.regs with idle := 0 } := by
  rw [regs_of_onlyRegs (onlyRegs_capture s ri re fi fe)]
  rfl

/-- A gated operation keeps the three fields when its effect does. -/
theorem tickFields_gated {f : State → State} (hf : tickFields (f s.quiet).regs = tickFields s.regs) :
    tickFields (gated s.quiet f).regs = tickFields s.regs := by
  obtain ⟨-, hignored⟩ | ⟨-, htaken⟩ := gated_cases s.quiet f
  · rw [hignored, quiet_regs]
  · rw [htaken, hf]

variable {s} {i : Instr} {t : State}

/-- The operations besides `LOOP`, `CAPTURE` and the restarts write none of the three fields. -/
theorem tickFields_exec_of_other (hword : i.hasTraceWord = true) (hrestart : isRestart i = false) (hloop : i ≠ .loop)
    (hcapture : ∀ a b c d, i ≠ .capture a b c d) (h : exec i s = .next t) : tickFields t.regs = tickFields s.regs := by
  cases i with
  | reset | trap => cases hrestart
  | loop => exact absurd rfl hloop
  | capture ri re fi fe => exact absurd rfl (hcapture ri re fi fe)
  | loopStartup | loopAutoZero | loopAutoHome | loopRunAfc | loopRunManual | loopUndefined _ => cases hword
  | setin b c r => cases h; rfl
  | slowtick => cases h; exact tickFields_gated s rfl
  | step => cases h; exact tickFields_gated s (tickFields_stepRegs s.cfg s.regs)
  | cmdSetHome | cmdSelectAfc | cmdSelectManual | cmdSetManual | cmdManualUp | cmdManualDown | cmdUnknown =>
    cases h
    exact tickFields_gated s rfl

/-- What an operation but the restarts does to the three fields: a `LOOP` that serves a slow tick updates them, a taken `CAPTURE` clears
the idle count, anything else keeps them. -/
theorem tickFields_exec_cases (hword : i.hasTraceWord = true) (hrestart : isRestart i = false) (h : exec i s = .next t) :
    (i = .loop ∧ ServesTick s ∧ tickFields t.regs = servedFields s.cfg s.inp (tickFields s.regs))
      ∨ ((∃ a b c d, i = .capture a b c d) ∧ s.regs.mode ≠ 0 ∧ tickFields t.regs = { tickFields s.regs with idle := 0 })
      ∨ (¬ (i = .loop ∧ ServesTick s) ∧ ¬ ((∃ a b c d, i = .capture a b c d) ∧ s.regs.mode ≠ 0)
        ∧ tickFields t.regs = tickFields s.regs) := by
  by_cases hloop : i = .loop
  · subst hloop
    cases h
    by_cases hserves : ServesTick s
    · exact .inl ⟨rfl, hserves, tickFields_loopBody_of_servesTick s hserves⟩
    · exact .inr (.inr ⟨fun hl => hserves hl.2, nofun, tickFields_loopBody_of_not_servesTick s hserves⟩)
  by_cases hcapture : ∃ a b c d, i = .capture a b c d
  · obtain ⟨ri, re, fi, fe, rfl⟩ := hcapture
    by_cases hmode : s.regs.mode = 0
    · cases (exec_capture_startup s ri re fi fe hmode).symm.trans h
      exact .inr (.inr ⟨nofun, fun hc => hc.2 hmode, rfl⟩)
    · cases (exec_capture_running s ri re fi fe hmode).symm.trans h
      exact .inr (.inl ⟨⟨ri, re, fi, fe, rfl⟩, hmode, tickFields_capture s ri re fi fe⟩)
  · exact .inr (.inr ⟨fun hl => hloop hl.1, fun hc => hcapture hc.1,
      tickFields_exec_of_other hword hrestart hloop (fun a b c d hi => hcapture ⟨a, b, c, d, hi⟩) h⟩)

end

/-! ### The obligations -/

/-- Settles O31: each written field by the lemma of its rule, the others as `slowsvcRegs` leaves them. -/
theorem slowServiceWritesWhatItsRuleSays : Obligations.SlowServiceWritesWhatItsRuleSays := by
  intro c i r t old new start
  have hcooling : cooling c r = true ↔ start ≤ new := cooling_iff c r
  refine ⟨nextIdle_toNat c r, nextHot_eq c r, fun hhigh => ?_, fun hlow => ?_, fun hhigh hmode => ?_, fun hkept => ?_, rfl,
    nextCommFault_eq i r, rfl⟩
  · exact slowsvcRegs_of_cooling c i r (hcooling.mpr hhigh)
  · exact slowsvcRegs_of_not_cooling c i r fun hcool => absurd (hcooling.mp hcool) (Nat.not_le.mpr hlow)
  · rw [← coolIndex_eq]
    exact slowsvcRegs_target_of_cooling c i r (hcooling.mpr hhigh) hmode
  · exact slowsvcRegs_target_of_not_cooling c i r fun hcool => hkept ⟨hcooling.mp hcool.1, hcool.2⟩

/-- Settles O32: the blend is one scaled distance away from home, on hot's side of it. -/
theorem blendStaysBetweenHomeAndHot : Obligations.BlendStaysBetweenHomeAndHot := by
  intro frac hot home m m' hm hle
  rw [BitVec.le_def] at hle
  refine ⟨fun hside => ⟨blend_above_toNat hm hside, blend_le_hot hm hside⟩, fun hside => ⟨?_, hot_le_blend hm hside⟩,
    blend_full, fun hzero => hzero ▸ blend_zero, ?_⟩
  · rw [blend_below_toNat hside]
    exact Nat.sub_add_cancel ((scaledDistance_le hm _).trans (Nat.sub_le _ _))
  · rw [absdiff_blend_home hm, absdiff_blend_home (hle.trans hm)]
    exact scaledDistance_mono hle _ _

/-- Settles O34: a served slow tick gives the two fields of the rule; a taken `CAPTURE` keeps them, as everything else does. -/
theorem commFaultIsSetByLevelAndClearedByEdge : Obligations.CommFaultIsSetByLevelAndClearedByEdge := by
  intro i s hword hrestart
  obtain ⟨t, ht⟩ := exec_completes i s
  refine ⟨t, ht, ?_⟩
  obtain ⟨hloop, hserves, hfields⟩ | ⟨⟨_, _, _, _, hcapture⟩, -, hfields⟩ | ⟨hnot, -, hfields⟩ :=
    tickFields_exec_cases hword hrestart ht
  · rw [if_pos ⟨hloop, hserves⟩]
    exact ⟨congrArg TickFields.faultResetPrev hfields, congrArg TickFields.commFault hfields⟩
  · rw [if_neg (by simp [hcapture])]
    exact ⟨congrArg TickFields.faultResetPrev hfields, congrArg TickFields.commFault hfields⟩
  · rw [if_neg hnot]
    exact ⟨congrArg TickFields.faultResetPrev hfields, congrArg TickFields.commFault hfields⟩

/-- Settles O35: the three ways an operation treats the idle count. -/
theorem idleTimeCountsServedSlowTicks : Obligations.IdleTimeCountsServedSlowTicks := by
  intro i s hword hrestart
  obtain ⟨t, ht⟩ := exec_completes i s
  refine ⟨t, ht, ?_⟩
  obtain ⟨hloop, hserves, hfields⟩ | ⟨hcapture, -, hfields⟩ | ⟨hnoServe, hnoCapture, hfields⟩ :=
    tickFields_exec_cases hword hrestart ht
  · have hidle : t.regs.timeOffCounter = incSat s.regs.timeOffCounter s.cfg.timeOffCeiling := congrArg TickFields.idle hfields
    refine ⟨fun ⟨_, _, _, _, hcapture⟩ => ?_, fun _ _ _ _ => ?_, fun _ hnot => absurd ⟨hloop, hserves⟩ hnot⟩
    · cases hloop.symm.trans hcapture
    · rw [hidle, incSat_toNat]
  · refine ⟨fun _ _ => congrArg TickFields.idle hfields, fun hloop => ?_, fun hnot => absurd hcapture hnot⟩
    obtain ⟨_, _, _, _, hcapture⟩ := hcapture
    cases hloop.symm.trans hcapture
  · exact ⟨fun hcapture hmode => absurd ⟨hcapture, hmode⟩ hnoCapture,
      fun hloop h1 h4 hflag => absurd ⟨hloop, h1, h4, hflag⟩ hnoServe, fun _ _ => congrArg TickFields.idle hfields⟩

/-- Settles O17, on the two sides of the gate. -/
theorem slowtickRaisesTheFlagAlone : Obligations.SlowtickRaisesTheFlagAlone := by
  intro s
  by_cases hmode : s.regs.mode = 0
  · exact ⟨s.quiet, exec_slowtick_startup s hmode, fun _ => onlyRegs_quiet s, fun hrunning => absurd hmode hrunning,
      fun _ => onlyRegs_quiet s⟩
  · refine ⟨slowtick s.quiet, exec_slowtick_running s hmode, fun hstartup => absurd hstartup hmode, fun _ => onlyRegs_slowtick s,
      fun hset => ?_⟩
    have hframe := onlyRegs_slowtick s
    rwa [raise_slowTickFlag_of_set hset] at hframe

end Sys2Proof.Proofs.SlowTick
end

section
/-! The commands (45_commands.md R250 to R257). Past the gate of `Startup` each command is one function of the state record, so one frame
rule covers all of them; the relative commands add the arithmetic of the clamp, whose lower bound is tested first. -/

namespace Sys2Proof.Proofs.Commands

open Sys2Proof.Machine Sys2Proof.Proofs.ControlLoop

/-! ### The dispatch (R250) -/

section
variable (s : State) (v n index d0 d1 d2 d3 : U16)

theorem exec_cmdSetHome : exec (.cmdSetHome v d1 d2 d3) s =
    .next (command s fun r => { r with homePosition := v, notConfigured := false }) := rfl

theorem exec_cmdSelectAfc : exec (.cmdSelectAfc d0 d1 d2 d3) s = .next (command s fun r => { r with manualModeReq := false }) := rfl

theorem exec_cmdSelectManual : exec (.cmdSelectManual d0 d1 d2 d3) s = .next (command s fun r => { r with manualModeReq := true }) := rfl

theorem exec_cmdSetManual : exec (.cmdSetManual v d1 d2 d3) s = .next (command s fun r => { r with manualTargetPosition := v }) := rfl

theorem exec_cmdManualUp :
    exec (.cmdManualUp n d1 d2 d3) s = .next (command s fun r => { r with manualTargetPosition := manualUp n r }) := rfl

theorem exec_cmdManualDown :
    exec (.cmdManualDown n d1 d2 d3) s = .next (command s fun r => { r with manualTargetPosition := manualDown n r }) := rfl

theorem exec_cmdUnknown : exec (.cmdUnknown index d0 d1 d2 d3) s = .next (command s id) := rfl

end

section
variable {s : State}

theorem command_running (h : s.regs.mode ≠ 0) (f : Regs → Regs) : command s f = s.quiet.mapRegs f := gated_quiet_running s _ h

/-- The frame rule of the commands: outside `Startup` the record becomes what the command makes of it, and only the outputs are free. -/
theorem onlyRegs_command (h : s.regs.mode ≠ 0) (f : Regs → Regs) : OnlyRegs s (command s f) (f s.regs) := by
  rw [command_running h]
  exact onlyRegs_mapRegs (onlyRegs_quiet s) f

/-- A command that writes nothing leaves the record alone on both sides of the gate. -/
theorem onlyRegs_command_id (s : State) : OnlyRegs s (command s id) s.regs := by
  by_cases hmode : s.regs.mode = 0
  · have hignored : command s id = s.quiet := gated_startup s.quiet _ hmode
    rw [hignored]
    exact onlyRegs_quiet s
  · exact onlyRegs_command hmode id

end

/-! ### The saturated manual target (R255, R256) -/

/-- The clamp of any integer into any two bounds, crossed ones included: below the lower bound that bound wins. -/
theorem clamp16_toNat_eq_ite (v : Int) (lo hi : U16) :
    (clamp16 v lo hi).toNat = if v < lo.toNat then lo.toNat else min v.toNat hi.toNat := by
  have hvalue := clamp16_toNat v lo hi
  obtain ⟨hbelow, hc⟩ | ⟨hlo, habove, hc⟩ | ⟨hlo, hinside, hc⟩ := clamp_cases v lo.toNat hi.toNat <;> rw [hc] at hvalue
  · rw [if_pos hbelow]
    omega
  · rw [if_neg (Int.not_lt.mpr hlo)]
    omega
  · rw [if_neg (Int.not_lt.mpr hlo)]
    omega

/-- R255: the sum does not wrap. -/
theorem manualUp_toNat (n : U16) (r : Regs) :
    (manualUp n r).toNat =
      if r.manualTargetPosition.toNat + n.toNat < r.minPosition.toNat then r.minPosition.toNat
      else min (r.manualTargetPosition.toNat + n.toNat) r.maxPosition.toNat := by
  rw [manualUp, clamp16_toNat_eq_ite]
  norm_cast

/-- R256: the test is on the integer difference, so a negative one is below every lower bound. -/
theorem manualDown_toNat (n : U16) (r : Regs) :
    (manualDown n r).toNat =
      if r.manualTargetPosition.toNat < r.minPosition.toNat + n.toNat then r.minPosition.toNat
      else min (r.manualTargetPosition.toNat - n.toNat) r.maxPosition.toNat := by
  have htest : (r.manualTargetPosition.toNat - n.toNat : Int) < r.minPosition.toNat ↔
      r.manualTargetPosition.toNat < r.minPosition.toNat + n.toNat := by omega
  rw [manualDown, clamp16_toNat_eq_ite, Int.toNat_sub]
  simp only [htest]

/-! ### The obligations -/

/-- Settles O42: the frame rule of the commands with the exact value of the saturated sum. -/
theorem manualUpAddsAndSaturates : Obligations.ManualUpAddsAndSaturates := fun s n d1 d2 d3 hmode =>
  ⟨_, manualUp n s.regs, exec_cmdManualUp s n d1 d2 d3, manualUp_toNat n s.regs, onlyRegs_command hmode _⟩

/-- Settles O43: the frame rule of the commands with the exact value of the saturated difference. -/
theorem manualDownSubtractsAndSaturates : Obligations.ManualDownSubtractsAndSaturates := fun s n d1 d2 d3 hmode =>
  ⟨_, manualDown n s.regs, exec_cmdManualDown s n d1 d2 d3, manualDown_toNat n s.regs, onlyRegs_command hmode _⟩

/-- Settles O39, by the frame rule of the commands. -/
theorem setHomeStoresTheHomeAndClearsTheLatch : Obligations.SetHomeStoresTheHomeAndClearsTheLatch := fun s v d1 d2 d3 hmode =>
  ⟨_, exec_cmdSetHome s v d1 d2 d3, onlyRegs_command hmode _⟩

/-- Settles O40, by the frame rule of the commands. -/
theorem selectionsWriteTheManualRequestAlone : Obligations.SelectionsWriteTheManualRequestAlone := fun s d0 d1 d2 d3 hmode =>
  ⟨⟨_, exec_cmdSelectAfc s d0 d1 d2 d3, onlyRegs_command hmode _⟩,
    ⟨_, exec_cmdSelectManual s d0 d1 d2 d3, onlyRegs_command hmode _⟩⟩

/-- Settles O41, by the frame rule of the commands. -/
theorem setManualStoresTheTargetUnclamped : Obligations.SetManualStoresTheTargetUnclamped := fun s v d1 d2 d3 hmode =>
  ⟨_, exec_cmdSetManual s v d1 d2 d3, onlyRegs_command hmode _⟩

/-- Settles O44: the command is the identity on the record, in `Startup` and past the gate. -/
theorem unknownCommandsAreIgnored : Obligations.UnknownCommandsAreIgnored := fun s index d0 d1 d2 d3 =>
  ⟨_, exec_cmdUnknown s index d0 d1 d2 d3, onlyRegs_command_id s⟩

end Sys2Proof.Proofs.Commands
end

section
/-! The restarts and the order of simultaneous requests (60_exceptions.md R282, R284, R285). The requests of one cycle are slots of at
most one operation each, joined in rank order; every operation that ranks behind `CAPTURE` keeps the trigger position. -/

namespace Sys2Proof.Proofs.Exceptions

open Sys2Proof.Machine Sys2Proof.Config Sys2Proof.Proofs.ControlLoop Sys2Proof.Proofs.Sampling Sys2Proof.Proofs.Actuator

/-! ### The restart (R284, R285) -/

theorem exec_reset (s : State) : exec .reset s = .next (restart s.quiet) := rfl

theorem exec_trap (s : State) : exec .trap s = .next (restart (s.quiet.raise .catastrophic)) := rfl

/-- The record of a restart is the table of 10_state.md R48. -/
theorem isResetRecord_resetRegs (c : Cfg) : IsResetRecord c (resetRegs c) where
  mode := rfl
  positions := ⟨rfl, rfl⟩
  bounds := ⟨rfl, rfl, rfl⟩
  stopped := rfl
  snapshot := ⟨rfl, rfl, rfl, rfl, rfl⟩
  markers := ⟨rfl, rfl⟩
  counters := ⟨rfl, rfl⟩
  readings := ⟨rfl, rfl, rfl, rfl⟩
  decisions := ⟨rfl, rfl, rfl⟩
  targets := ⟨rfl, rfl⟩
  configured := rfl
  latches := ⟨rfl, rfl, rfl⟩
  history := ⟨fun i => histRead_replicate i HistEntry.zero, rfl⟩

/-- A restart salvages nothing of the record, whatever preceded it, and keeps the rest. -/
theorem onlyRegs_restart {s t : State} {r : Regs} (h : OnlyRegs s t r) : OnlyRegs s (restart t) (resetRegs s.cfg) := by
  obtain ⟨-, -, hcfg, -⟩ := onlyRegs_iff.mp h
  rw [← hcfg]
  exact onlyRegs_mapRegs h _

/-! ### Slots of requests in rank order (R282) -/

/-- A slot of the arbiter: empty, or one operation of the given rank. -/
def IsSlot (n : Nat) (is : List Instr) : Prop := is = [] ∨ ∃ i, requestRank i = n ∧ is = [i]

theorem mem_whenSet {b : Bool} {i j : Instr} : i ∈ whenSet b j ↔ b = true ∧ i = j := by
  cases b <;> simp [whenSet]

theorem isSlot_whenSet (b : Bool) (i : Instr) : IsSlot (requestRank i) (whenSet b i) := by
  cases b with
  | false => exact .inl rfl
  | true => exact .inr ⟨i, rfl, rfl⟩

theorem isSlot_map_toList {α : Type} {n : Nat} {f : α → Instr} (hf : ∀ a, requestRank (f a) = n) (o : Option α) :
    IsSlot n (o.toList.map f) := by
  cases o with
  | none => exact .inl rfl
  | some a => exact .inr ⟨f a, hf a, rfl⟩

/-- Operations in strictly ascending rank, the first of rank `n` or later. -/
structure AscendingFrom (n : Nat) (is : List Instr) : Prop where
  ranks : List.Pairwise (fun i j => requestRank i < requestRank j) is
  bound : ∀ i ∈ is, n ≤ requestRank i

/-- A slot goes in front of operations that rank behind it. -/
theorem AscendingFrom.slot_append {n : Nat} {is js : List Instr} (hjs : AscendingFrom (n + 1) js) (hslot : IsSlot n is) :
    AscendingFrom n (is ++ js) := by
  obtain rfl | ⟨i, rfl, rfl⟩ := hslot
  · exact ⟨hjs.ranks, fun j hj => Nat.le_of_succ_le (hjs.bound j hj)⟩
  · refine ⟨.cons hjs.bound hjs.ranks, fun j hj => ?_⟩
    obtain rfl | hj := List.mem_cons.mp hj
    · exact Nat.le_refl _
    · exact Nat.le_of_succ_le (hjs.bound j hj)

theorem IsSlot.ascendingFrom {n : Nat} {is : List Instr} (hslot : IsSlot n is) : AscendingFrom n is := by
  have hnil : AscendingFrom (n + 1) [] := ⟨.nil, nofun⟩
  simpa using hnil.slot_append hslot

theorem requestRank_decodeCmd (c : CmdRecord) : requestRank (decodeCmd c) = 5 := by
  unfold decodeCmd
  split_ifs <;> rfl

/-! ### The operations of one cycle (R282) -/

section
variable {q : Requests}

theorem arbitrate_rst (h : q.rst = true) : arbitrate q = [.reset] := if_pos h

theorem arbitrate_trap (hrst : q.rst = false) (htrap : q.trapIn = true) : arbitrate q = [.trap] := by
  simp [arbitrate, hrst, htrap]

/-- The operation that a pulse starts. -/
def captureOf (p : Readings) : Instr := .capture p.revInt p.revExt p.fwdInt p.fwdExt

variable (q) in
/-- The requests that rank behind `CAPTURE`. -/
def laterRequests : List Instr :=
  whenSet q.stepTick .step ++ (whenSet q.slowTick .slowtick ++ (q.cmdValid.toList.map decodeCmd ++ whenSet q.loop .loop))

theorem arbitrate_ordinary (hrst : q.rst = false) (htrap : q.trapIn = false) :
    arbitrate q = q.pulseTrig.toList.map captureOf ++ laterRequests q := by
  simp [arbitrate, hrst, htrap, laterRequests, captureOf]

variable (q) in
theorem ascendingFrom_laterRequests : AscendingFrom 3 (laterRequests q) :=
  (isSlot_whenSet q.loop .loop).ascendingFrom
    |>.slot_append (isSlot_map_toList requestRank_decodeCmd q.cmdValid)
    |>.slot_append (isSlot_whenSet q.slowTick .slowtick)
    |>.slot_append (isSlot_whenSet q.stepTick .step)

/-- A restart stands alone; the other requests follow one another slot by slot. -/
theorem arbitrate_pairwise : List.Pairwise (fun i j => requestRank i < requestRank j) (arbitrate q) := by
  cases hrst : q.rst with
  | true =>
    rw [arbitrate_rst hrst]
    exact List.pairwise_singleton _ _
  | false =>
    cases htrap : q.trapIn with
    | true =>
      rw [arbitrate_trap hrst htrap]
      exact List.pairwise_singleton _ _
    | false =>
      rw [arbitrate_ordinary hrst htrap]
      exact ((ascendingFrom_laterRequests q).slot_append (isSlot_map_toList (f := captureOf) (fun _ => rfl) q.pulseTrig)).ranks

theorem mem_arbitrate_ordinary (hrst : q.rst = false) (htrap : q.trapIn = false) (i : Instr) :
    i ∈ arbitrate q ↔
      (∃ p, q.pulseTrig = some p ∧ i = captureOf p)
        ∨ (q.stepTick = true ∧ i = .step) ∨ (q.slowTick = true ∧ i = .slowtick)
        ∨ (∃ c, q.cmdValid = some c ∧ i = decodeCmd c) ∨ (q.loop = true ∧ i = .loop) := by
  simp only [arbitrate_ordinary hrst htrap, laterRequests, List.mem_append, List.mem_map, Option.mem_toList, mem_whenSet,
    eq_comm (a := i)]

end

/-! ### The trigger position behind CAPTURE -/

section
variable (s : State)

/-- A mode body that serves keeps the trigger position when its own writes do. -/
theorem served_trigger {f : Regs → Regs} (hf : ∀ r, (f r).positionAtTrigger = r.positionAtTrigger) :
    ((service s).mapRegs f).regs.positionAtTrigger = s.regs.positionAtTrigger := by
  obtain ⟨-, -, -, -, -, htrigger, -⟩ := service_regs_frame s
  exact (hf _).trans htrigger

theorem bodyStartup_trigger : (bodyStartup s).regs.positionAtTrigger = s.regs.positionAtTrigger := by
  unfold bodyStartup
  split <;> rfl

theorem bodyAutoZero_trigger : (bodyAutoZero s).regs.positionAtTrigger = s.regs.positionAtTrigger := served_trigger s fun _ => rfl

theorem bodyAutoHome_trigger : (bodyAutoHome s).regs.positionAtTrigger = s.regs.positionAtTrigger := served_trigger s fun _ => rfl

theorem bodyRunAfc_trigger : (bodyRunAfc s).regs.positionAtTrigger = s.regs.positionAtTrigger := served_trigger s fun _ => rfl

theorem bodyRunManual_trigger : (bodyRunManual s).regs.positionAtTrigger = s.regs.positionAtTrigger := served_trigger s fun _ => rfl

theorem bodyUndefined_trigger : (bodyUndefined s).regs.positionAtTrigger = s.regs.positionAtTrigger := rfl

theorem loopBody_trigger : (loopBody s).regs.positionAtTrigger = s.regs.positionAtTrigger := by
  obtain ⟨-, hb⟩ | ⟨-, hb⟩ | ⟨-, hb⟩ | ⟨-, hb⟩ | ⟨-, hb⟩ | ⟨-, hb⟩ := loopBody_cases s <;> rw [hb]
  · exact bodyStartup_trigger s
  · exact bodyAutoZero_trigger s
  · exact bodyAutoHome_trigger s
  · exact bodyRunAfc_trigger s
  · exact bodyRunManual_trigger s
  · exact bodyUndefined_trigger s

theorem gated_trigger {f : State → State} (hf : (f s.quiet).regs.positionAtTrigger = s.regs.positionAtTrigger) :
    (gated s.quiet f).regs.positionAtTrigger = s.regs.positionAtTrigger := by
  obtain ⟨-, hignored⟩ | ⟨-, htaken⟩ := gated_cases s.quiet f
  · rw [hignored, quiet_regs]
  · rw [htaken, hf]

theorem stepRegs_trigger (c : Cfg) (r : Regs) : (stepRegs c r).positionAtTrigger = r.positionAtTrigger := by rw [stepRegs_eq]

variable {s}

/-- Only `CAPTURE` and the restarts write the trigger position, and each of them ranks before `STEP`. -/
theorem exec_keeps_trigger {i : Instr} {t : State} (hrank : 3 ≤ requestRank i) (h : exec i s = .next t) :
    t.regs.positionAtTrigger = s.regs.positionAtTrigger := by
  cases i with
  | reset | trap | capture => simp [requestRank] at hrank
  | loop => cases h; exact loopBody_trigger s.quiet
  | step => cases h; exact gated_trigger s (stepRegs_trigger s.cfg s.regs)
  | slowtick => cases h; exact gated_trigger s rfl
  | setin => cases h; rfl
  | cmdSetHome | cmdSelectAfc | cmdSelectManual | cmdSetManual | cmdManualUp | cmdManualDown | cmdUnknown =>
    cases h
    exact gated_trigger s rfl
  | loopStartup => cases h; exact bodyStartup_trigger s.quiet
  | loopAutoZero => cases h; exact bodyAutoZero_trigger s.quiet
  | loopAutoHome => cases h; exact bodyAutoHome_trigger s.quiet
  | loopRunAfc => cases h; exact bodyRunAfc_trigger s.quiet
  | loopRunManual => cases h; exact bodyRunManual_trigger s.quiet
  | loopUndefined => cases h; exact bodyUndefined_trigger s.quiet

theorem execAll_keeps_trigger {is : List Instr} (hranks : ∀ i ∈ is, 3 ≤ requestRank i) :
    ∃ t, execAll is s = .next t ∧ t.regs.positionAtTrigger = s.regs.positionAtTrigger := by
  induction is generalizing s with
  | nil => exact ⟨s, rfl, rfl⟩
  | cons i is ih =>
    obtain ⟨hi, his⟩ := List.forall_mem_cons.mp hranks
    obtain ⟨u, hu⟩ := exec_completes i s
    obtain ⟨t, hrun, ht⟩ := ih (s := u) his
    exact ⟨t, (execAll_cons hu is).trans hrun, ht.trans (exec_keeps_trigger hi hu)⟩

/-- A pulse outside `Startup` stores the position at the start of the cycle: `CAPTURE` runs first and no later request writes there. -/
theorem execCycle_trigger {q : Requests} {p : Readings} (hmode : s.regs.mode ≠ 0) (hrst : q.rst = false) (htrap : q.trapIn = false)
    (hpulse : q.pulseTrig = some p) :
    ∃ t, execCycle q s = .next t ∧ t.regs.positionAtTrigger = s.regs.currentPosition := by
  have horder : arbitrate q = captureOf p :: laterRequests q := by
    rw [arbitrate_ordinary hrst htrap, hpulse]
    rfl
  have hcapture : exec (captureOf p) s = .next _ := exec_capture_running s _ _ _ _ hmode
  obtain ⟨t, hrun, ht⟩ := execAll_keeps_trigger (ascendingFrom_laterRequests q).bound
  refine ⟨t, ?_, ht.trans ?_⟩
  · rw [execCycle, horder, execAll_cons hcapture, hrun]
  · rw [regs_of_onlyRegs (onlyRegs_capture s _ _ _ _)]
    rfl

end

/-! ### The obligations -/

/-- Settles O18: the restarts alone, the slots in rank order with exactly their requests, and the trigger position that `CAPTURE`
stores and the later requests, `STEP` among them, keep. -/
theorem simultaneousRequestsRunInPriorityOrder : Obligations.SimultaneousRequestsRunInPriorityOrder := by
  intro q
  refine ⟨arbitrate_rst, arbitrate_trap, arbitrate_pairwise, mem_arbitrate_ordinary, fun s hmode hrst htrap hpulse _ => ?_⟩
  obtain ⟨p, hp⟩ := Option.ne_none_iff_exists'.mp hpulse
  exact execCycle_trigger hmode hrst htrap hp

/-- Settles O1: the restart from cleared outputs. -/
theorem resetGivesEveryFieldItsResetValue : Obligations.ResetGivesEveryFieldItsResetValue := fun s =>
  ⟨_, exec_reset s, isResetRecord_resetRegs s.cfg, onlyRegs_restart (onlyRegs_quiet s)⟩

/-- Settles O2: the restart of `RESET` behind the report, which it keeps. -/
theorem trapReportsCatastrophicAndResets : Obligations.TrapReportsCatastrophicAndResets := fun s =>
  ⟨_, _, exec_trap s, exec_reset s, isResetRecord_resetRegs s.cfg, rfl, onlyRegs_restart (onlyRegs_raise (onlyRegs_quiet s) _), rfl⟩

end Sys2Proof.Proofs.Exceptions
end

section
/-! Every operation as one function of the configuration, the levels and the state record (00_scope.md R12, 20_memory.md R71): the
record, the levels and the outputs it leaves. The statements about all operations are read off these three functions. -/

namespace Sys2Proof.Proofs.Transition

open Sys2Proof.Machine Sys2Proof.Config Sys2Proof.Proofs.ControlLoop Sys2Proof.Proofs.Sampling Sys2Proof.Proofs.Actuator
  Sys2Proof.Proofs.SlowTick

/-! ### The three functions -/

/-- The record behind the gate of `Startup` (60_exceptions.md R281): `r` itself there, `u` in every other mode. -/
def gatedRegs (r u : Regs) : Regs := if r.mode = 0 then r else u

/-- The record that `SERVICE` leaves (40_control_state_machine.md R121). -/
def servedRegs (c : Cfg) (inp : Inputs) (r : Regs) : Regs :=
  if r.slowTickFlag then slowsvcRegs c inp { serveSampleRegs c r with slowTickFlag := false } else serveSampleRegs c r

/-- The record that `LOOP.Startup` leaves (R122). -/
def startupRegs (c : Cfg) (inp : Inputs) (r : Regs) : Regs :=
  if inp.bringupDone then { r with minPosition := 0, maxPosition := c.posFullMax, homePosition := c.posFullMax, mode := 1 } else r

/-- The record that the body selected by `mode` leaves (R120). -/
def loopRegs (c : Cfg) (inp : Inputs) (r : Regs) : Regs :=
  if r.mode = 0 then startupRegs c inp r
  else if r.mode = 1 then autoZeroRegs c (servedRegs c inp r)
  else if r.mode = 2 then autoHomeRegs c (servedRegs c inp r)
  else if r.mode = 3 then runAfcRegs (servedRegs c inp r)
  else if r.mode = 4 then runManualRegs (servedRegs c inp r)
  else { r with mode := 3 }

/-- The record that an operation leaves. -/
def recordAfter (c : Cfg) (inp : Inputs) (r : Regs) : Instr → Regs
  | .reset | .trap => resetRegs c
  | .loop => loopRegs c inp r
  | .step => gatedRegs r (stepRegs c r)
  | .slowtick => gatedRegs r { r with slowTickFlag := true }
  | .capture ri re fi fe => gatedRegs r (captureRegs c ri re fi fe r)
  | .setin _ _ _ => r
  | .cmdSetHome v _ _ _ => gatedRegs r { r with homePosition := v, notConfigured := false }
  | .cmdSelectAfc _ _ _ _ => gatedRegs r { r with manualModeReq := false }
  | .cmdSelectManual _ _ _ _ => gatedRegs r { r with manualModeReq := true }
  | .cmdSetManual v _ _ _ => gatedRegs r { r with manualTargetPosition := v }
  | .cmdManualUp n _ _ _ => gatedRegs r { r with manualTargetPosition := manualUp n r }
  | .cmdManualDown n _ _ _ => gatedRegs r { r with manualTargetPosition := manualDown n r }
  | .cmdUnknown _ _ _ _ _ => r
  | .loopStartup => startupRegs c inp r
  | .loopAutoZero => autoZeroRegs c (servedRegs c inp r)
  | .loopAutoHome => autoHomeRegs c (servedRegs c inp r)
  | .loopRunAfc => runAfcRegs (servedRegs c inp r)
  | .loopRunManual => runManualRegs (servedRegs c inp r)
  | .loopUndefined _ => { r with mode := 3 }

/-- The levels that an operation leaves (40_control_state_machine.md R129). -/
def levelsAfter (inp : Inputs) : Instr → Inputs
  | .setin b c r => ⟨b, c, r⟩
  | _ => inp

/-- The outputs of `SERVICE` from cleared ones (44_cooldown_status.md R221). -/
def servedPulses (r : Regs) : Pulses := ⟨r.slowTickFlag, none⟩

/-- The outputs of a `LOOP`: those of the body that `mode` selects. -/
def loopPulses (r : Regs) : Pulses :=
  if r.mode = 0 then .quiet else if 5 ≤ r.mode.toNat then ⟨false, some .unreachableState⟩ else servedPulses r

/-- The outputs of a `CAPTURE` (41_sampling_postpulse.md R151). -/
def capturePulses (c : Cfg) (r : Regs) (re fe : U16) : Pulses :=
  if r.mode ≠ 0 ∧ (re = c.extAdcSentinel ∨ fe = c.extAdcSentinel) then ⟨false, some .sensor⟩ else .quiet

/-- The outputs of an operation. -/
def pulsesAfter (c : Cfg) (r : Regs) : Instr → Pulses
  | .trap => ⟨false, some .catastrophic⟩
  | .loop => loopPulses r
  | .capture _ re _ fe => capturePulses c r re fe
  | .loopAutoZero | .loopAutoHome | .loopRunAfc | .loopRunManual => servedPulses r
  | .loopUndefined _ => ⟨false, some .unreachableState⟩
  | _ => .quiet

/-- The whole state that an operation leaves. -/
def stateAfter (i : Instr) (s : State) : State where
  regs := recordAfter s.cfg s.inp s.regs i
  inp := levelsAfter s.inp i
  cfg := s.cfg
  out := pulsesAfter s.cfg s.regs i
  trace := s.trace

/-! ### Each operation is its functions -/

section
variable {s t : State} {r : Regs}

/-- An update of the record and the outputs alone, with the outputs named. -/
theorem eq_of_onlyRegs_of_out {p : Pulses} (h : OnlyRegs s t r) (hout : t.out = p) : t = { s with regs := r, out := p } := by
  rw [← hout]
  exact h

variable (s)

theorem service_regs_eq : (service s).regs = servedRegs s.cfg s.inp s.regs := service_regs s

theorem service_quiet_out : (service s.quiet).out = servedPulses s.regs := by
  rw [service_out, quiet_regs, quiet_out, servedPulses]
  cases s.regs.slowTickFlag <;> rfl

/-- The bodies that serve, whole. -/
theorem served_eq (f : Regs → Regs) :
    (service s.quiet).mapRegs f = { s with regs := f (servedRegs s.cfg s.inp s.regs), out := servedPulses s.regs } := by
  rw [← service_regs_eq]
  exact eq_of_onlyRegs_of_out (onlyRegs_served s f) (service_quiet_out s)

theorem bodyStartup_eq :
    bodyStartup s.quiet = { s with regs := startupRegs s.cfg s.inp s.regs, out := .quiet } := by
  unfold bodyStartup startupRegs
  rw [quiet_inp]
  split <;> rfl

/-- A gated operation whose effect is known. -/
theorem gated_eq {f : State → State} {u : Regs} {p : Pulses} (hf : f s.quiet = { s with regs := u, out := p }) :
    gated s.quiet f = { s with regs := gatedRegs s.regs u, out := if s.regs.mode = 0 then .quiet else p } := by
  unfold gatedRegs
  obtain ⟨hmode, hignored⟩ | ⟨hmode, htaken⟩ := gated_cases s.quiet f <;> rw [quiet_regs] at hmode
  · rw [hignored, if_pos hmode, if_pos hmode]
    rfl
  · rw [htaken, hf, if_neg hmode, if_neg hmode]

/-- A gated operation that puts nothing out. -/
theorem gated_eq_of_quiet {f : State → State} {u : Regs} (hf : f s.quiet = { s with regs := u, out := .quiet }) :
    gated s.quiet f = { s with regs := gatedRegs s.regs u, out := .quiet } := by
  rw [gated_eq s hf, ite_self]

theorem loopBody_eq : loopBody s.quiet = stateAfter .loop s := by
  have hstate : stateAfter .loop s = { s with regs := loopRegs s.cfg s.inp s.regs, out := loopPulses s.regs } := rfl
  rw [hstate, loopRegs, loopPulses]
  obtain ⟨hm, hb⟩ | ⟨hm, hb⟩ | ⟨hm, hb⟩ | ⟨hm, hb⟩ | ⟨hm, hb⟩ | ⟨hm, hb⟩ := loopBody_cases s.quiet <;>
    rw [hb] <;> rw [quiet_regs] at hm
  · simp [hm, bodyStartup_eq]
  · simp [hm, bodyAutoZero, served_eq]
  · simp [hm, bodyAutoHome, served_eq]
  · simp [hm, bodyRunAfc, served_eq]
  · simp [hm, bodyRunManual, served_eq]
  · obtain h5 | h6 | h7 := (five_le_mode_iff _).mp hm
    · simp [h5]; rfl
    · simp [h6]; rfl
    · simp [h7]; rfl

theorem capture_eq (ri re fi fe : U16) :
    capture ri re fi fe s.quiet =
      { s with
        regs := captureRegs s.cfg ri re fi fe s.regs
        out := if re = s.cfg.extAdcSentinel ∨ fe = s.cfg.extAdcSentinel then ⟨false, some .sensor⟩ else .quiet } := by
  by_cases hsentinel : re = s.cfg.extAdcSentinel ∨ fe = s.cfg.extAdcSentinel
  · rw [if_pos hsentinel]
    exact if_pos hsentinel
  · rw [if_neg hsentinel]
    exact if_neg hsentinel

/-- A command is gated and puts nothing out (45_commands.md R250). -/
theorem command_eq (f : Regs → Regs) : command s f = { s with regs := gatedRegs s.regs (f s.regs), out := .quiet } :=
  gated_eq_of_quiet s rfl

/-- Every operation completes, with the state that the three functions give. -/
theorem exec_eq (i : Instr) (s : State) : exec i s = .next (stateAfter i s) := by
  refine (exec_completes i s).elim fun t ht => ht.trans (congrArg Host.Outcome.next ?_)
  cases i with
  | reset | trap | setin => cases ht; rfl
  | loop => cases ht; exact loopBody_eq s
  | step => cases ht; exact gated_eq_of_quiet s rfl
  | slowtick => cases ht; exact gated_eq_of_quiet s rfl
  | capture ri re fi fe =>
    cases ht
    rw [gated_eq s (capture_eq s ri re fi fe), ← ite_not, ← ite_and]
    rfl
  | cmdUnknown =>
    cases ht
    rw [command_eq, gatedRegs, id, ite_self]
    rfl
  | cmdSetHome | cmdSelectAfc | cmdSelectManual | cmdSetManual | cmdManualUp | cmdManualDown => cases ht; exact command_eq s _
  | loopStartup => cases ht; exact bodyStartup_eq s
  | loopAutoZero | loopAutoHome | loopRunAfc | loopRunManual => cases ht; exact served_eq s _
  | loopUndefined => cases ht; rfl


end

end Sys2Proof.Proofs.Transition
end

section
/-! What no operation writes, what each agent writes, and what each operation puts out (20_memory.md R66, R72; 60_exceptions.md R270,
R281). -/

namespace Sys2Proof.Proofs.Frames

open Sys2Proof.Machine Sys2Proof.Config Sys2Proof.Proofs.ControlLoop Sys2Proof.Proofs.Actuator Sys2Proof.Proofs.SlowTick
  Sys2Proof.Proofs.Exceptions Sys2Proof.Proofs.Direction Sys2Proof.Proofs.Transition

theorem isRestart_iff {i : Instr} : isRestart i = true ↔ i = .reset ∨ i = .trap := by simp [isRestart]

/-! ### What SERVICE and LOOP keep (R72) -/

section
variable (c : Cfg) (inp : Inputs) (r : Regs)

/-- `SERVICE` keeps every field of the other agents, and those that the mode bodies test. -/
theorem servedRegs_frame :
    servedRegs c inp r =
      { servedRegs c inp r with
        currentPosition := r.currentPosition, minPosition := r.minPosition, maxPosition := r.maxPosition
        homePosition := r.homePosition, timeStepsStopped := r.timeStepsStopped, positionAtTrigger := r.positionAtTrigger
        revRawInt := r.revRawInt, revRawExt := r.revRawExt, fwdRawInt := r.fwdRawInt, fwdRawExt := r.fwdRawExt, mode := r.mode
        manualTargetPosition := r.manualTargetPosition, notConfigured := r.notConfigured, manualModeReq := r.manualModeReq } := by
  have hkept := service_regs_frame ⟨r, inp, c, .quiet, []⟩
  rw [service_regs_eq] at hkept
  obtain ⟨h1, h2, h3, h4, h5, h6, h7, h8, h9, h10, h11, h12, h13, h14⟩ := hkept
  rw [← h1, ← h2, ← h3, ← h4, ← h5, ← h6, ← h7, ← h8, ← h9, ← h10, ← h11, ← h12, ← h13, ← h14]

@[simp] theorem servedRegs_position : (servedRegs c inp r).currentPosition = r.currentPosition := by
  rw [servedRegs_frame]
@[simp] theorem servedRegs_minPosition : (servedRegs c inp r).minPosition = r.minPosition := by
  rw [servedRegs_frame]
@[simp] theorem servedRegs_maxPosition : (servedRegs c inp r).maxPosition = r.maxPosition := by
  rw [servedRegs_frame]
@[simp] theorem servedRegs_home : (servedRegs c inp r).homePosition = r.homePosition := by
  rw [servedRegs_frame]
@[simp] theorem servedRegs_stopped : (servedRegs c inp r).timeStepsStopped = r.timeStepsStopped := by
  rw [servedRegs_frame]
@[simp] theorem servedRegs_mode : (servedRegs c inp r).mode = r.mode := by
  rw [servedRegs_frame]
@[simp] theorem servedRegs_manualTarget : (servedRegs c inp r).manualTargetPosition = r.manualTargetPosition := by
  rw [servedRegs_frame]
@[simp] theorem servedRegs_notConfigured : (servedRegs c inp r).notConfigured = r.notConfigured := by
  rw [servedRegs_frame]
@[simp] theorem servedRegs_manualModeReq : (servedRegs c inp r).manualModeReq = r.manualModeReq := by
  rw [servedRegs_frame]

/-- The record that a `LOOP` leaves, by the body that ran. -/
theorem loopRegs_cases :
    (r.mode = 0 ∧ loopRegs c inp r = startupRegs c inp r)
      ∨ (r.mode = 1 ∧ loopRegs c inp r = autoZeroRegs c (servedRegs c inp r))
      ∨ (r.mode = 2 ∧ loopRegs c inp r = autoHomeRegs c (servedRegs c inp r))
      ∨ (r.mode = 3 ∧ loopRegs c inp r = runAfcRegs (servedRegs c inp r))
      ∨ (r.mode = 4 ∧ loopRegs c inp r = runManualRegs (servedRegs c inp r))
      ∨ (5 ≤ r.mode.toNat ∧ loopRegs c inp r = { r with mode := 3 }) := by
  unfold loopRegs
  by_cases h0 : r.mode = 0
  · exact .inl ⟨h0, if_pos h0⟩
  rw [if_neg h0]
  by_cases h1 : r.mode = 1
  · exact .inr (.inl ⟨h1, if_pos h1⟩)
  rw [if_neg h1]
  by_cases h2 : r.mode = 2
  · exact .inr (.inr (.inl ⟨h2, if_pos h2⟩))
  rw [if_neg h2]
  by_cases h3 : r.mode = 3
  · exact .inr (.inr (.inr (.inl ⟨h3, if_pos h3⟩)))
  rw [if_neg h3]
  by_cases h4 : r.mode = 4
  · exact .inr (.inr (.inr (.inr (.inl ⟨h4, if_pos h4⟩))))
  rw [if_neg h4]
  exact .inr (.inr (.inr (.inr (.inr ⟨by bv_omega, rfl⟩))))

variable {r} in
theorem loopRegs_autoHome (h : r.mode = 2) : loopRegs c inp r = autoHomeRegs c (servedRegs c inp r) := by simp [loopRegs, h]

variable {r} in
theorem loopRegs_runAfc (h : r.mode = 3) : loopRegs c inp r = runAfcRegs (servedRegs c inp r) := by simp [loopRegs, h]

variable {r} in
theorem loopRegs_runManual (h : r.mode = 4) : loopRegs c inp r = runManualRegs (servedRegs c inp r) := by simp [loopRegs, h]

/-- A `LOOP` writes none of the fields that the sampler, the actuator and the selections own (R72). -/
theorem loopRegs_frame :
    loopRegs c inp r =
      { loopRegs c inp r with
        positionAtTrigger := r.positionAtTrigger, revRawInt := r.revRawInt, revRawExt := r.revRawExt
        fwdRawInt := r.fwdRawInt, fwdRawExt := r.fwdRawExt, currentPosition := r.currentPosition
        timeStepsStopped := r.timeStepsStopped, notConfigured := r.notConfigured, manualModeReq := r.manualModeReq } := by
  obtain ⟨-, hb⟩ | ⟨-, hb⟩ | ⟨-, hb⟩ | ⟨-, hb⟩ | ⟨-, hb⟩ | ⟨-, hb⟩ := loopRegs_cases c inp r <;> rw [hb]
  · unfold startupRegs
    split <;> rfl
  all_goals rw [servedRegs_frame]; rfl

end

/-! ### The gate (R281) -/

section
variable {r u : Regs}

theorem gatedRegs_startup (h : r.mode = 0) : gatedRegs r u = r := if_pos h

theorem gatedRegs_running (h : r.mode ≠ 0) : gatedRegs r u = u := if_neg h

/-- What holds of the record before a gated operation and of the record of its effect holds of the record after it. -/
theorem gatedRegs_induction {P : Regs → Prop} (hignored : P r) (htaken : r.mode ≠ 0 → P u) : P (gatedRegs r u) := by
  by_cases hmode : r.mode = 0
  · rwa [gatedRegs_startup hmode]
  · rw [gatedRegs_running hmode]
    exact htaken hmode

theorem recordAfter_startup {i : Instr} (c : Cfg) (inp : Inputs) (hmode : r.mode = 0) (hgated : isGated i = true) :
    recordAfter c inp r i = r := by
  cases i with
  | reset | trap | loop | setin => cases hgated
  | loopStartup | loopAutoZero | loopAutoHome | loopRunAfc | loopRunManual | loopUndefined => cases hgated
  | cmdUnknown => rfl
  | step | slowtick | capture => exact gatedRegs_startup hmode
  | cmdSetHome | cmdSelectAfc | cmdSelectManual | cmdSetManual | cmdManualUp | cmdManualDown => exact gatedRegs_startup hmode

end

/-! ### The internal readings (10_state.md R29) -/

/-- The record with other internal readings. -/
def withInternal (ri fi : U16) (r : Regs) : Regs := { r with revRawInt := ri, fwdRawInt := fi }

section
variable (c : Cfg) (inp : Inputs) (ri fi : U16) (r u : Regs)

theorem stepRegs_withInternal : stepRegs c (withInternal ri fi r) = withInternal ri fi (stepRegs c r) := by
  rw [stepRegs_eq, stepRegs_eq]
  rfl

theorem decideSum_withInternal : decideSum c (withInternal ri fi r) = decideSum c r := by
  simp only [decideSum, decideHist, newEntry, withInternal]

theorem decideDir_withInternal : decideDir c (withInternal ri fi r) = decideDir c r := by
  rw [decideDir, decideSum_withInternal]
  simp only [decideDir, decidePrev, withInternal]

theorem decideRegs_withInternal : decideRegs c (withInternal ri fi r) = withInternal ri fi (decideRegs c r) := by
  simp only [decideRegs, decideFast, decideInversions, decideDir_withInternal, decideSum_withInternal]
  simp only [decideHist, decidePrev, newEntry, withInternal]

theorem serveSampleRegs_withInternal :
    serveSampleRegs c (withInternal ri fi r) = withInternal ri fi (serveSampleRegs c r) := by
  have hpost : postpulseRegs c { withInternal ri fi r with sampleComplete := false }
      = withInternal ri fi (postpulseRegs c { r with sampleComplete := false }) := rfl
  rw [serveSampleRegs_eq, serveSampleRegs_eq, hpost, decideRegs_withInternal, apply_ite (withInternal ri fi),
    apply_ite (withInternal ri fi)]
  rfl

theorem servedRegs_withInternal : servedRegs c inp (withInternal ri fi r) = withInternal ri fi (servedRegs c inp r) := by
  rw [servedRegs, servedRegs, serveSampleRegs_withInternal, apply_ite (withInternal ri fi)]
  rfl

theorem startupRegs_withInternal : startupRegs c inp (withInternal ri fi r) = withInternal ri fi (startupRegs c inp r) := by
  rw [startupRegs, startupRegs, apply_ite (withInternal ri fi)]
  rfl

theorem loopRegs_withInternal : loopRegs c inp (withInternal ri fi r) = withInternal ri fi (loopRegs c inp r) := by
  simp only [loopRegs, servedRegs_withInternal, startupRegs_withInternal, apply_ite (withInternal ri fi)]
  rfl

theorem gatedRegs_withInternal {u' : Regs} (hu : u' = withInternal ri fi u) :
    gatedRegs (withInternal ri fi r) u' = withInternal ri fi (gatedRegs r u) := by
  rw [hu, gatedRegs, gatedRegs, apply_ite (withInternal ri fi)]
  rfl

/-- Other internal readings before an operation are at most other internal readings after it. -/
theorem recordAfter_withInternal (i : Instr) :
    ∃ ri' fi', recordAfter c inp (withInternal ri fi r) i = withInternal ri' fi' (recordAfter c inp r i) := by
  cases i with
  | reset | trap => exact ⟨_, _, rfl⟩
  | capture ri' _ fi' _ =>
    by_cases hmode : r.mode = 0
    · refine ⟨ri, fi, ?_⟩
      rw [recordAfter_startup c inp (r := withInternal ri fi r) hmode rfl, recordAfter_startup c inp hmode rfl]
    · refine ⟨ri', fi', ?_⟩
      rw [recordAfter, recordAfter, gatedRegs_running (r := withInternal ri fi r) hmode, gatedRegs_running hmode]
      rfl
  | setin | cmdUnknown | loopUndefined => exact ⟨ri, fi, rfl⟩
  | loop => exact ⟨ri, fi, loopRegs_withInternal c inp ri fi r⟩
  | loopStartup => exact ⟨ri, fi, startupRegs_withInternal c inp ri fi r⟩
  | loopAutoZero | loopAutoHome | loopRunAfc | loopRunManual =>
    refine ⟨ri, fi, ?_⟩
    rw [recordAfter, recordAfter, servedRegs_withInternal]
    rfl
  | step =>
    refine ⟨ri, fi, ?_⟩
    exact gatedRegs_withInternal ri fi r _ (stepRegs_withInternal c ri fi r)
  | slowtick | cmdSetHome | cmdSelectAfc | cmdSelectManual | cmdSetManual | cmdManualUp | cmdManualDown =>
    exact ⟨ri, fi, gatedRegs_withInternal ri fi r _ rfl⟩

/-- The outputs read neither internal reading. -/
theorem pulsesAfter_withInternal (i : Instr) : pulsesAfter c (withInternal ri fi r) i = pulsesAfter c r i := by
  cases i <;> rfl

end

/-! ### The fast-mode latch (10_state.md R36) -/

section
variable (c : Cfg) (inp : Inputs) (r : Regs)

/-- The sample half of `SERVICE` only ever sets the latch, and on a decision with more pulses than the floor (R177). -/
theorem serveSampleRegs_fast :
    (r.fastAfcDone = true → (serveSampleRegs c r).fastAfcDone = true)
      ∧ (r.fastAfcDone = false → (serveSampleRegs c r).fastAfcDone = true →
          r.mode = 3 ∧ r.sampleComplete = true ∧ c.fastPulseFloor < r.pulsesOnThisRun) := by
  obtain ⟨-, hr⟩ | ⟨-, -, hr⟩ | ⟨hsample, hmode, hr⟩ := serveSampleRegs_cases c r <;> rw [hr]
  · exact ⟨id, fun hclear hset => absurd (hclear.symm.trans hset) (by decide)⟩
  · exact ⟨id, fun hclear hset => absurd (hclear.symm.trans hset) (by decide)⟩
  · rw [decideRegs_fastAfcDone, decideFast, nextFastDone_iff]
    refine ⟨.inl, fun hclear hset => ⟨hmode, hsample, ?_⟩⟩
    have hordered := c.pulses_ordered.1
    obtain hdone | hceiling | ⟨hfloor, -⟩ := hset
    · exact absurd (hclear.symm.trans hdone) (by decide)
    · exact BitVec.lt_def.mpr (hordered.trans_lt hceiling)
    · exact hfloor

/-- The slow-tick half of `SERVICE` only ever clears the latch, and at or above the threshold (R223). -/
theorem servedRegs_fast :
    (r.fastAfcDone = false → (servedRegs c inp r).fastAfcDone = true →
        r.mode = 3 ∧ r.sampleComplete = true ∧ c.fastPulseFloor < r.pulsesOnThisRun)
      ∧ (r.fastAfcDone = true → (servedRegs c inp r).fastAfcDone = false →
        r.slowTickFlag = true ∧ c.cooldownStartThreshold ≤ (servedRegs c inp r).timeOffCounter) := by
  obtain ⟨hkept, hrise⟩ := serveSampleRegs_fast c r
  unfold servedRegs
  by_cases hflag : r.slowTickFlag = true
  · rw [if_pos hflag]
    by_cases hcool : cooling c { serveSampleRegs c r with slowTickFlag := false } = true
    · obtain ⟨hfast, -, -⟩ := slowsvcRegs_of_cooling c inp _ hcool
      rw [hfast]
      exact ⟨nofun, fun _ _ => ⟨hflag, (cooling_iff c _).mp hcool⟩⟩
    · obtain ⟨hfast, -, -⟩ := slowsvcRegs_of_not_cooling c inp _ hcool
      rw [hfast]
      exact ⟨hrise, fun hset hclear => absurd ((hkept hset).symm.trans hclear) (by decide)⟩
  · rw [if_neg hflag]
    exact ⟨hrise, fun hset hclear => absurd ((hkept hset).symm.trans hclear) (by decide)⟩

/-- A `LOOP` leaves the latch and the idle count as they were or as `SERVICE` leaves them. -/
theorem loopRegs_fast_cases :
    (loopRegs c inp r).fastAfcDone = r.fastAfcDone
      ∨ ((loopRegs c inp r).fastAfcDone = (servedRegs c inp r).fastAfcDone
        ∧ (loopRegs c inp r).timeOffCounter = (servedRegs c inp r).timeOffCounter) := by
  obtain ⟨-, hb⟩ | ⟨-, hb⟩ | ⟨-, hb⟩ | ⟨-, hb⟩ | ⟨-, hb⟩ | ⟨-, hb⟩ := loopRegs_cases c inp r <;> rw [hb]
  case inl =>
    unfold startupRegs
    split <;> exact .inl rfl
  case inr.inr.inr.inr.inr => exact .inl rfl
  all_goals exact .inr ⟨rfl, rfl⟩

variable {c inp r} in
theorem recordAfter_fast_of_other {i : Instr} (hword : i.hasTraceWord = true) (hloop : i ≠ .loop) (hrestart : isRestart i = false) :
    (recordAfter c inp r i).fastAfcDone = r.fastAfcDone := by
  cases i with
  | reset | trap => cases hrestart
  | loop => exact absurd rfl hloop
  | loopStartup | loopAutoZero | loopAutoHome | loopRunAfc | loopRunManual | loopUndefined => cases hword
  | setin | cmdUnknown => rfl
  | step =>
    refine gatedRegs_induction (P := fun t => t.fastAfcDone = r.fastAfcDone) rfl fun _ => ?_
    rw [stepRegs_eq]
  | slowtick | capture | cmdSetHome | cmdSelectAfc | cmdSelectManual | cmdSetManual | cmdManualUp | cmdManualDown =>
    exact gatedRegs_induction (P := fun t => t.fastAfcDone = r.fastAfcDone) rfl fun _ => rfl

end

/-! ### The levels (40_control_state_machine.md R129) -/

theorem levelsAfter_of_ne_setin (inp : Inputs) {i : Instr} (h : ∀ b c r, i ≠ .setin b c r) : levelsAfter inp i = inp := by
  cases i with
  | setin b c r => exact absurd rfl (h b c r)
  | _ => rfl

/-! ### The outputs (44_cooldown_status.md R221, 60_exceptions.md R270) -/

section
variable (c : Cfg) (r : Regs)

theorem pulsesAfter_trap : pulsesAfter c r .trap = ⟨false, some .catastrophic⟩ := rfl

theorem pulsesAfter_loop : pulsesAfter c r .loop = loopPulses r := rfl

theorem pulsesAfter_capture (ri re fi fe : U16) : pulsesAfter c r (.capture ri re fi fe) = capturePulses c r re fe := rfl

theorem pulsesAfter_of_other {i : Instr} (hword : i.hasTraceWord = true) (htrap : i ≠ .trap) (hloop : i ≠ .loop)
    (hcapture : ∀ ri re fi fe, i ≠ .capture ri re fi fe) : pulsesAfter c r i = .quiet := by
  cases i with
  | trap => exact absurd rfl htrap
  | loop => exact absurd rfl hloop
  | capture ri re fi fe => exact absurd rfl (hcapture ri re fi fe)
  | loopAutoZero | loopAutoHome | loopRunAfc | loopRunManual | loopUndefined => cases hword
  | _ => rfl

/-- The three ways the outputs of a `LOOP` go, by the range of `mode`. -/
theorem loopPulses_cases :
    (r.mode = 0 ∧ loopPulses r = .quiet)
      ∨ (1 ≤ r.mode.toNat ∧ r.mode.toNat ≤ 4 ∧ loopPulses r = servedPulses r)
      ∨ (5 ≤ r.mode.toNat ∧ loopPulses r = ⟨false, some .unreachableState⟩) := by
  unfold loopPulses
  by_cases h0 : r.mode = 0
  · exact .inl ⟨h0, if_pos h0⟩
  rw [if_neg h0]
  by_cases h5 : 5 ≤ r.mode.toNat
  · exact .inr (.inr ⟨h5, if_pos h5⟩)
  · exact .inr (.inl ⟨by bv_omega, by omega, if_neg h5⟩)

theorem loopPulses_wdtKick_iff :
    (loopPulses r).wdtKick = true ↔ 1 ≤ r.mode.toNat ∧ r.mode.toNat ≤ 4 ∧ r.slowTickFlag = true := by
  obtain ⟨hmode, hp⟩ | ⟨h1, h4, hp⟩ | ⟨h5, hp⟩ := loopPulses_cases r <;> rw [hp]
  · simp [hmode]
  · simp [servedPulses, h1, h4]
  · simp
    omega

/-- A `LOOP` reports nothing but the undefined `mode`. -/
theorem loopPulses_raised : (loopPulses r).raised = if 5 ≤ r.mode.toNat then some .unreachableState else none := by
  obtain ⟨hmode, hp⟩ | ⟨-, h4, hp⟩ | ⟨h5, hp⟩ := loopPulses_cases r <;> rw [hp]
  · simp [hmode]
  · rw [if_neg (by omega)]
    rfl
  · rw [if_pos h5]

theorem capturePulses_wdtKick (re fe : U16) : (capturePulses c r re fe).wdtKick = false := by
  unfold capturePulses
  split <;> rfl

/-- A `CAPTURE` reports nothing but the sentinel. -/
theorem capturePulses_raised (re fe : U16) :
    (capturePulses c r re fe).raised =
      if r.mode ≠ 0 ∧ (re = c.extAdcSentinel ∨ fe = c.extAdcSentinel) then some .sensor else none := by
  unfold capturePulses
  split <;> rfl

end

/-! ### The writes of one agent (20_memory.md R72) -/

section
variable (r t : Regs)

/-- At most the fields of the sampler are written. -/
def SamplerWrites : Prop :=
  t = { r with
    positionAtTrigger := t.positionAtTrigger, revRawInt := t.revRawInt, revRawExt := t.revRawExt
    fwdRawInt := t.fwdRawInt, fwdRawExt := t.fwdRawExt, sampleComplete := t.sampleComplete
    pulsesOnThisRun := t.pulsesOnThisRun, timeOffCounter := t.timeOffCounter }

/-- At most the fields of the actuator are written. -/
def ActuatorWrites : Prop :=
  t = { r with
    currentPosition := t.currentPosition, timeStepsStopped := t.timeStepsStopped, targetPosition := t.targetPosition }

/-- At most the fields of the commands are written. -/
def CommandWrites : Prop :=
  t = { r with
    homePosition := t.homePosition, manualTargetPosition := t.manualTargetPosition
    notConfigured := t.notConfigured, manualModeReq := t.manualModeReq }

/-- At most the slow-tick flag is written. -/
def SlowtickWrites : Prop := t = { r with slowTickFlag := t.slowTickFlag }

variable {r} (c : Cfg) (inp : Inputs)

theorem samplerWrites_capture (ri re fi fe : U16) : SamplerWrites r (recordAfter c inp r (.capture ri re fi fe)) :=
  gatedRegs_induction (P := SamplerWrites r) rfl fun _ => rfl

theorem actuatorWrites_step : ActuatorWrites r (recordAfter c inp r .step) := by
  refine gatedRegs_induction (P := ActuatorWrites r) rfl fun _ => ?_
  rw [ActuatorWrites, stepRegs_eq]

theorem slowtickWrites_slowtick : SlowtickWrites r (recordAfter c inp r .slowtick) :=
  gatedRegs_induction (P := SlowtickWrites r) rfl fun _ => rfl

theorem commandWrites_of_requestRank {i : Instr} (hrank : requestRank i = 5) : CommandWrites r (recordAfter c inp r i) := by
  cases i with
  | reset | trap | loop | step | slowtick | capture | setin => cases hrank
  | loopStartup | loopAutoZero | loopAutoHome | loopRunAfc | loopRunManual | loopUndefined => cases hrank
  | cmdUnknown => rfl
  | cmdSetHome | cmdSelectAfc | cmdSelectManual | cmdSetManual | cmdManualUp | cmdManualDown =>
    exact gatedRegs_induction (P := CommandWrites r) rfl fun _ => rfl

end

/-! ### The obligations -/

/-- Settles O47: the writes of each agent's operations, and the fields that `LOOP` keeps. -/
theorem agentsWriteOnlyTheirOwnFields : Obligations.AgentsWriteOnlyTheirOwnFields := by
  intro i s _ _
  refine ⟨_, exec_eq i s, ?_, ?_, ?_, commandWrites_of_requestRank s.cfg s.inp, ?_⟩
  · rintro ⟨ri, re, fi, fe, rfl⟩
    exact samplerWrites_capture s.cfg s.inp ri re fi fe
  · rintro rfl
    exact actuatorWrites_step s.cfg s.inp
  · rintro rfl
    have hkept : (stateAfter .loop s).regs = _ := loopRegs_frame s.cfg s.inp s.regs
    rw [hkept]
    exact ⟨rfl, rfl, rfl, rfl, rfl, rfl, rfl, rfl, rfl⟩
  · rintro rfl
    exact slowtickWrites_slowtick s.cfg s.inp

/-- Settles O48: `stateAfter` keeps the configuration and the trace, `levelsAfter` all levels but those of `SETIN`. -/
theorem noOperationChangesTheConfiguration : Obligations.NoOperationChangesTheConfiguration := by
  exact fun i s => ⟨stateAfter i s, exec_eq i s, rfl, rfl, levelsAfter_of_ne_setin s.inp⟩

/-- Two states that differ at most in the internal readings, the readings named. -/
theorem equalButInternal_iff {s t : State} :
    EqualButInternal s t ↔ ∃ ri fi, t = { s with regs := withInternal ri fi s.regs } := by
  refine ⟨fun h => ⟨_, _, h⟩, ?_⟩
  rintro ⟨ri, fi, rfl⟩
  rfl

/-- Settles O49: the record and the outputs after an operation, from two records that differ in the internal readings alone. -/
theorem internalReadingsInfluenceNothing : Obligations.InternalReadingsInfluenceNothing := by
  intro i s t hst
  refine ⟨_, _, exec_eq i s, exec_eq i t, ?_⟩
  obtain ⟨ri, fi, rfl⟩ := equalButInternal_iff.mp hst
  obtain ⟨ri', fi', hrecord⟩ := recordAfter_withInternal s.cfg s.inp ri fi s.regs i
  refine equalButInternal_iff.mpr ⟨ri', fi', ?_⟩
  simp only [stateAfter, hrecord, pulsesAfter_withInternal]

/-- Settles O14: the gated operations leave the record, the others by what they write. -/
theorem startupIgnoresTriggersAndCommands : Obligations.StartupIgnoresTriggersAndCommands := by
  intro s hmode
  refine ⟨fun i hgated => ⟨_, exec_eq i s, ?_⟩, fun hbringup => ⟨_, exec_loop s, ?_⟩, fun b c r => ⟨_, rfl, rfl⟩, ?_⟩
  · have hsetin (b c r) : i ≠ .setin b c r := by
      rintro rfl
      cases hgated
    exact onlyRegs_iff.mpr ⟨recordAfter_startup s.cfg s.inp hmode hgated, levelsAfter_of_ne_setin s.inp hsetin, rfl, rfl⟩
  · rw [loopBody_mode, if_pos hmode, if_pos hbringup]
  · rintro i (rfl | rfl)
    · exact ⟨_, exec_reset s, isResetRecord_resetRegs s.cfg⟩
    · exact ⟨_, exec_trap s, isResetRecord_resetRegs s.cfg⟩

/-- Settles O36: a restart clears the latch, a `LOOP` leaves it as it was or as `SERVICE` does, every other operation keeps it. -/
theorem fastLatchChangesOnlyByDecisionOrCooldown : Obligations.FastLatchChangesOnlyByDecisionOrCooldown := by
  intro i s hword
  refine ⟨_, exec_eq i s, ?_⟩
  have hkept (h : (recordAfter s.cfg s.inp s.regs i).fastAfcDone = s.regs.fastAfcDone) {P Q : Prop} :
      (s.regs.fastAfcDone = false → (stateAfter i s).regs.fastAfcDone = true → P)
        ∧ (s.regs.fastAfcDone = true → (stateAfter i s).regs.fastAfcDone = false → Q) := by
    have hsame : (stateAfter i s).regs.fastAfcDone = s.regs.fastAfcDone := h
    rw [hsame]
    exact ⟨fun hclear hset => absurd (hclear.symm.trans hset) (by decide),
      fun hset hclear => absurd (hclear.symm.trans hset) (by decide)⟩
  by_cases hloop : i = .loop
  · subst hloop
    obtain hsame | ⟨hfast, hidle⟩ := loopRegs_fast_cases s.cfg s.inp s.regs
    · exact hkept hsame
    · obtain ⟨hrise, hfall⟩ := servedRegs_fast s.cfg s.inp s.regs
      rw [← hfast] at hrise hfall
      rw [← hidle] at hfall
      exact ⟨fun hclear hset => ⟨rfl, hrise hclear hset⟩, fun hset hclear => .inr ⟨rfl, hfall hset hclear⟩⟩
  · cases hrestart : isRestart i with
    | true =>
      have hreset : (stateAfter i s).regs.fastAfcDone = false := by
        obtain rfl | rfl := isRestart_iff.mp hrestart <;> rfl
      exact ⟨fun _ hset => absurd (hreset.symm.trans hset) (by decide), fun _ _ => .inl rfl⟩
    | false => exact hkept (recordAfter_fast_of_other hword hloop hrestart)

/-- Settles O37: of all operations only `LOOP` pulses, in the modes whose body serves. -/
theorem watchdogIsKickedByServedSlowTicks : Obligations.WatchdogIsKickedByServedSlowTicks := by
  intro i s hword
  refine ⟨_, exec_eq i s, ?_⟩
  change (pulsesAfter s.cfg s.regs i).wdtKick = true ↔ _
  by_cases hloop : i = .loop
  · subst hloop
    exact (loopPulses_wdtKick_iff s.regs).trans (and_iff_right rfl).symm
  have hquiet : (pulsesAfter s.cfg s.regs i).wdtKick = false := by
    cases i with
    | loop => exact absurd rfl hloop
    | capture ri re fi fe => exact capturePulses_wdtKick s.cfg s.regs re fe
    | trap => rfl
    | _ => rw [pulsesAfter_of_other s.cfg s.regs hword nofun nofun nofun]; rfl
  rw [hquiet]
  exact iff_of_false nofun fun h => hloop h.1

/-- Settles O38: the reports of `TRAP`, `LOOP` and `CAPTURE`, and the silence of the others. -/
theorem faultClassesAreReportedWhereTheyOccur : Obligations.FaultClassesAreReportedWhereTheyOccur := by
  intro i s hword
  refine ⟨_, exec_eq i s, ?_⟩
  change ((pulsesAfter s.cfg s.regs i).raised = _ ↔ _) ∧ ((pulsesAfter s.cfg s.regs i).raised = _ ↔ _)
    ∧ ((pulsesAfter s.cfg s.regs i).raised = _ ↔ _) ∧ (pulsesAfter s.cfg s.regs i).raised ≠ _
    ∧ (pulsesAfter s.cfg s.regs i).raised ≠ _
  cases i with
  | trap => simp [pulsesAfter_trap]
  | loop =>
    rw [pulsesAfter_loop, loopPulses_raised]
    simp
  | capture ri re fi fe =>
    rw [pulsesAfter_capture, capturePulses_raised]
    simp [or_iff_not_imp_left]
  | _ =>
    rw [pulsesAfter_of_other s.cfg s.regs hword nofun nofun nofun]
    simp

end Sys2Proof.Proofs.Frames
end

section
/-! Decoding, encoding and the run of a trace (30_encoding.md R90 to R107). A trace word gives back its operation whatever follows it, and
the decoder accepts nothing else; a step therefore runs the first operation of an encoded trace and leaves the rest of it. -/

namespace Sys2Proof.Proofs.Encoding

open Sys2Proof.Machine Sys2Proof.Proofs.CommandIndex Sys2Proof.Proofs.Actuator Sys2Proof.Proofs.Transition

/-! ### Bytes (R101, R103) -/

@[simp] theorem hiByte_wordOf (hi lo : Byte) : hiByte (wordOf hi lo) = hi := BitVec.extractLsb'_append_eq_left

@[simp] theorem loByte_wordOf (hi lo : Byte) : loByte (wordOf hi lo) = lo := BitVec.extractLsb'_append_eq_right

@[simp] theorem encodeU16_wordOf (hi lo : Byte) : encodeU16 (wordOf hi lo) = [hi, lo] := by
  rw [encodeU16, hiByte_wordOf, loByte_wordOf]

theorem levelsByte_reserved : ∀ b c r : Bool, (levelsByte b c r).extractLsb' 3 5 = 0#5 := by decide

theorem levelsByte_flags : ∀ b c r : Bool,
    (levelsByte b c r).getLsbD 0 = b ∧ (levelsByte b c r).getLsbD 1 = c ∧ (levelsByte b c r).getLsbD 2 = r := by decide

/-- A levels byte with clear reserved bits is rebuilt from its three levels. -/
theorem levelsByte_getLsbD (levels : Byte) (h : levels.extractLsb' 3 5 = 0#5) :
    levelsByte (levels.getLsbD 0) (levels.getLsbD 1) (levels.getLsbD 2) = levels := by
  revert levels
  decide

theorem reserved_levels_iff (levels : Byte) : levels.extractLsb' 3 5 = 0#5 ↔ levels.toNat < 8 := by
  rw [← BitVec.toNat_inj, BitVec.extractLsb'_toNat, BitVec.toNat_ofNat, Nat.shiftRight_eq_div_pow]
  omega

/-! ### The decoder on encoded operations -/

theorem encode_of_hasTraceWord {i : Instr} (hword : i.hasTraceWord = true) : encode i = .word (encodeWord i) := by
  cases i with
  | loopStartup | loopAutoZero | loopAutoHome | loopRunAfc | loopRunManual | loopUndefined => cases hword
  | _ => rfl

theorem decode_captureWord (ri re fi fe : U16) (rest : List Byte) :
    decode (encodeWord (.capture ri re fi fe) ++ rest) = .ok (.capture ri re fi fe, rest) := by
  change Except.ok (Instr.capture (wordOf (hiByte _) (loByte _)) (wordOf (hiByte _) (loByte _)) (wordOf (hiByte _) (loByte _))
    (wordOf (hiByte _) (loByte _)), rest) = _
  simp only [wordOf_hiByte_loByte]

theorem decode_setinWord (b c r : Bool) (rest : List Byte) :
    decode (encodeWord (.setin b c r) ++ rest) = .ok (.setin b c r, rest) := by
  obtain ⟨hb, hc, hr⟩ := levelsByte_flags b c r
  have hdecode : decode (encodeWord (.setin b c r) ++ rest) = decodeSetin (levelsByte b c r :: rest) := rfl
  rw [hdecode, decodeSetin, if_pos (levelsByte_reserved b c r), hb, hc, hr]

/-- A trace word decodes to its operation, and whatever follows the word is left unread. -/
theorem decode_encodeWord {i : Instr} (hwf : i.wellFormed = true) (hword : i.hasTraceWord = true) (rest : List Byte) :
    decode (encodeWord i ++ rest) = .ok (i, rest) := by
  cases i with
  | reset | trap | loop | step | slowtick => rfl
  | capture ri re fi fe => exact decode_captureWord ri re fi fe rest
  | setin b c r => exact decode_setinWord b c r rest
  | cmdSetHome | cmdSelectAfc | cmdSelectManual | cmdSetManual | cmdManualUp | cmdManualDown => exact decode_encodeCmd _ rest
  | cmdUnknown index d0 d1 d2 d3 =>
    have hreserved : definedIndex index = false := by simpa [Instr.wellFormed] using hwf
    have hdecode := decode_encodeCmd ⟨index, d0, d1, d2, d3⟩ rest
    rwa [decodeCmd_of_reserved _ hreserved] at hdecode
  | loopStartup | loopAutoZero | loopAutoHome | loopRunAfc | loopRunManual | loopUndefined => cases hword

/-- An undefined value of `mode` selects the body that carries it (R90). -/
theorem decodeMode_of_undefined {m : ModeBits} (h : undefinedMode m = true) : decodeMode m = .loopUndefined m := by
  revert m
  decide

theorem decodeCode_encode {i : Instr} (hwf : i.wellFormed = true) : decodeCode (encode i) = some i := by
  cases hword : i.hasTraceWord with
  | true =>
    have hdecode := decode_encodeWord hwf hword []
    rw [List.append_nil] at hdecode
    rw [encode_of_hasTraceWord hword, decodeCode, hdecode]
  | false =>
    cases i with
    | loopUndefined m => exact congrArg some (decodeMode_of_undefined hwf)
    | loopStartup | loopAutoZero | loopAutoHome | loopRunAfc | loopRunManual => rfl
    | _ => cases hword

/-! ### What the decoder accepts -/

/-- The bytes `b` are the trace word of the well-formed operation `i`, followed by `rest`. -/
structure IsWord (b : List Byte) (i : Instr) (rest : List Byte) : Prop where
  bytes : b = encodeWord i ++ rest
  wellFormed : i.wellFormed = true
  traceWord : i.hasTraceWord = true

variable {b rest : List Byte} {i : Instr}

theorem isWord_of_decodeCapture (h : decodeCapture b = .ok (i, rest)) : IsWord (0x01#8 :: b) i rest := by
  unfold decodeCapture at h
  split at h
  · cases h
    exact ⟨by simp [encodeWord, encode], rfl, rfl⟩
  · cases h

/-- A reserved index is one that none of the six comparisons meets (R95, R96). -/
theorem definedIndex_eq_false {index : U16} (h1 : index ≠ 1) (h2 : index ≠ 2) (h3 : index ≠ 3) (h4 : index ≠ 4) (h5 : index ≠ 5)
    (h6 : index ≠ 6) : definedIndex index = false := by
  rw [definedIndex_eq_false_iff]
  bv_omega

theorem isWord_decodeCmd (c : CmdRecord) (rest : List Byte) : IsWord (encodeCmd c ++ rest) (decodeCmd c) rest := by
  obtain ⟨index, d0, d1, d2, d3⟩ := c
  unfold decodeCmd
  dsimp only
  split_ifs with h1 h2 h3 h4 h5 h6
  case neg => exact ⟨rfl, by simp [Instr.wellFormed, definedIndex_eq_false h1 h2 h3 h4 h5 h6], rfl⟩
  all_goals subst index; exact ⟨rfl, rfl, rfl⟩

theorem isWord_of_decodeCommand (h : decodeCommand b = .ok (i, rest)) : IsWord (0x04#8 :: b) i rest := by
  unfold decodeCommand at h
  split at h
  next i1 i0 a1 a0 b1 b0 c1 c0 d1 d0 rest' =>
    cases h
    have hword := isWord_decodeCmd ⟨wordOf i1 i0, wordOf a1 a0, wordOf b1 b0, wordOf c1 c0, wordOf d1 d0⟩ rest
    simpa [encodeCmd] using hword
  next => cases h

theorem isWord_of_decodeSetin (h : decodeSetin b = .ok (i, rest)) : IsWord (0x05#8 :: b) i rest := by
  cases b with
  | nil => cases h
  | cons levels b =>
    rw [decodeSetin] at h
    split_ifs at h with hreserved
    cases h
    exact ⟨congrArg (0x05#8 :: · :: rest) (levelsByte_getLsbD levels hreserved).symm, rfl, rfl⟩

/-- The decoder accepts trace words alone, each by the branch of its event code. -/
theorem isWord_of_decode (h : decode b = .ok (i, rest)) : IsWord b i rest := by
  cases b with
  | nil => cases h
  | cons code b =>
    rw [decode] at h
    split_ifs at h with h0 h1 h2 h3 h4 h5 hE hF <;> subst code
    · cases h; exact ⟨rfl, rfl, rfl⟩
    · exact isWord_of_decodeCapture h
    · cases h; exact ⟨rfl, rfl, rfl⟩
    · cases h; exact ⟨rfl, rfl, rfl⟩
    · exact isWord_of_decodeCommand h
    · exact isWord_of_decodeSetin h
    · cases h; exact ⟨rfl, rfl, rfl⟩
    · cases h; exact ⟨rfl, rfl, rfl⟩

/-- Each value of `mode` encodes the body it selects (R90, R107). -/
theorem encode_decodeMode : ∀ m : ModeBits, encode (decodeMode m) = .mode m ∧ (decodeMode m).wellFormed = true := by decide

/-! ### What the decoder refuses (R104) -/

theorem decode_reservedEvent {code : Byte} (h : (6 ≤ code.toNat ∧ code.toNat ≤ 13) ∨ 16 ≤ code.toNat) (rest : List Byte) :
    decode (code :: rest) = .error (.reservedEvent code) := by
  have hne (k : Byte) (hk : k.toNat < 6 ∨ k.toNat = 14 ∨ k.toNat = 15) : code ≠ k := by
    rintro rfl
    omega
  rw [decode]
  iterate 8 rw [if_neg (hne _ (by decide))]

theorem decodeCapture_of_short (h : rest.length < 8) : decodeCapture rest = .error (.truncatedWord 0x01#8) := by
  unfold decodeCapture
  split
  · simp only [List.length_cons] at h
    omega
  · rfl

theorem decodeCommand_of_short (h : rest.length < 10) : decodeCommand rest = .error (.truncatedWord 0x04#8) := by
  unfold decodeCommand
  split
  · simp only [List.length_cons] at h
    omega
  · rfl

theorem decodeSetin_reservedLevels {levels : Byte} (h : 8 ≤ levels.toNat) (rest : List Byte) :
    decodeSetin (levels :: rest) = .error (.reservedLevels levels) := by
  rw [decodeSetin, if_neg]
  rw [reserved_levels_iff]
  omega

/-! ### Steps (20_memory.md R71) -/

section
variable {s : State}

theorem step_of_decode (h : decode s.trace = .ok (i, rest)) : step s = exec i (s.setTrace rest) := by
  rw [step, fetch, h]

theorem step_of_error {e : DecodeError} (h : decode s.trace = .error e) : step s = .refused (refusalOf e) := by
  rw [step, fetch, h]

/-- No operation reads the trace. -/
theorem stateAfter_setTrace (i : Instr) (s : State) (trace : List Byte) :
    stateAfter i (s.setTrace trace) = (stateAfter i s).setTrace trace := rfl

/-- A step on an encoded operation runs it and leaves what follows. -/
theorem step_encodeWord (hwf : i.wellFormed = true) (hword : i.hasTraceWord = true) (s : State) (rest : List Byte) :
    step (s.setTrace (encodeWord i ++ rest)) = .next ((stateAfter i s).setTrace rest) := by
  have hdecode : decode (s.setTrace (encodeWord i ++ rest)).trace = .ok (i, rest) := decode_encodeWord hwf hword rest
  rw [step_of_decode hdecode, exec_eq]
  rfl

theorem run_succ {M : Host.Core} {s t : M.State} (h : M.step s = .next t) (k : Nat) : M.run (k + 1) s = M.run k t := by
  rw [Host.Core.run, h]

/-- The run of an encoded trace and the sequence of its operations end in the same state. -/
theorem run_encodeTrace (is : List Instr) (his : ∀ i ∈ is, i.wellFormed = true ∧ i.hasTraceWord = true) (s : State) :
    ∃ t : State, Host.Core.run Sys2Proof.core is.length (s.setTrace (encodeTrace is)) = .next t
      ∧ execAll is (s.setTrace []) = .next t ∧ t.trace = [] := by
  induction is generalizing s with
  | nil => exact ⟨s.setTrace [], rfl, rfl, rfl⟩
  | cons i is ih =>
    obtain ⟨⟨hwf, hword⟩, his⟩ := List.forall_mem_cons.mp his
    obtain ⟨t, hrun, hall, htrace⟩ := ih his (stateAfter i s)
    refine ⟨t, ?_, ?_, htrace⟩
    · exact (run_succ (M := Sys2Proof.core) (step_encodeWord hwf hword s (encodeTrace is)) is.length).trans hrun
    · rw [execAll_cons (exec_eq i _), stateAfter_setTrace, hall]

end

/-! ### The obligations -/

/-- Settles O60: by induction over the operations, each step taking the first word off the trace. -/
theorem runOfATraceIsTheSequenceOfItsOperations : Obligations.RunOfATraceIsTheSequenceOfItsOperations :=
  fun s is his => run_encodeTrace is his s

/-- Settles O57: the trace words through the decoder of bytes, the mode bodies through that of `mode` values. -/
theorem encodedOperationsDecodeBack : Obligations.EncodedOperationsDecodeBack :=
  fun _ rest hwf => ⟨decodeCode_encode hwf, fun hword => decode_encodeWord hwf hword rest⟩

/-- Settles O58: each branch of the decoder accepts the word of its operation alone. -/
theorem decodedBytesEncodeBack : Obligations.DecodedBytesEncodeBack := by
  refine ⟨fun b rest i h => ?_, encode_decodeMode⟩
  obtain ⟨hbytes, hwf, hword⟩ := isWord_of_decode h
  exact ⟨hbytes, hwf, hword⟩

/-- Settles O55, by the branch of `step` whose fetch succeeds. -/
theorem stepRunsTheDecodedOperation : Obligations.StepRunsTheDecodedOperation := fun _ _ _ _ h => step_of_decode h

/-- Settles O56: the decoder's error for each illegal beginning, as the step reports it. -/
theorem illegalTraceWordsAreRefused : Obligations.IllegalTraceWordsAreRefused := by
  intro s rest
  refine ⟨fun code hcode htrace => ?_, fun levels hlevels htrace => ?_, fun htrace hshort => ?_, fun htrace hshort => ?_,
    fun htrace => ?_, fun htrace => ?_⟩
  · exact step_of_error (e := .reservedEvent code) (htrace ▸ decode_reservedEvent hcode rest)
  · exact step_of_error (e := .reservedLevels levels) (htrace ▸ decodeSetin_reservedLevels hlevels rest)
  · exact step_of_error (e := .truncatedWord 0x01#8) (htrace ▸ decodeCapture_of_short hshort)
  · exact step_of_error (e := .truncatedWord 0x04#8) (htrace ▸ decodeCommand_of_short hshort)
  · exact step_of_error (e := .truncatedWord 0x05#8) (htrace ▸ rfl)
  · exact step_of_error (e := .endOfTrace) (htrace ▸ rfl)

/-- Settles O59: the words are the encodings of their operations. -/
theorem writtenOutWordsDecode : Obligations.WrittenOutWordsDecode := by
  refine ⟨?_, ?_, ?_, rfl⟩
  · exact decode_encodeWord (i := .capture 0x0123 0x0800 0x0456 0x0C00) rfl rfl []
  · exact decode_encodeWord (i := .cmdSetHome 500 0 0 0) rfl rfl []
  · exact decode_encodeWord (i := .setin true false false) rfl rfl []

end Sys2Proof.Proofs.Encoding
end

section
/-! What every run keeps (10_state.md R21 to R39, 40_control_state_machine.md R122 to R130). A state with `Inv` is either just reset or
running, so a step is followed on two kinds of record; a homing that cannot end and a spell of manual mode are invariants of the
permitted operations. -/

namespace Sys2Proof.Proofs.Invariant

open Sys2Proof.Machine Sys2Proof.Config Sys2Proof.Proofs.Actuator Sys2Proof.Proofs.SlowTick Sys2Proof.Proofs.Exceptions
  Sys2Proof.Proofs.Transition Sys2Proof.Proofs.Frames Sys2Proof.Proofs.Encoding

/-! ### Reset or running -/

/-- The part of `Inv` that holds outside `Startup`. -/
structure Running (c : Cfg) (r : Regs) : Prop where
  mode : 1 ≤ r.mode.toNat ∧ r.mode.toNat ≤ 4
  bounds : (r.minPosition = 0 ∧ r.maxPosition = c.posFullMax ∧ r.mode.toNat ≤ 2)
    ∨ (r.minPosition = c.posOpMin ∧ r.maxPosition = c.posOpMax ∧ 2 ≤ r.mode.toNat)
  travel : r.currentPosition ≤ c.posFullMax
  configured : 2 ≤ r.mode.toNat → r.notConfigured = false
  idle : r.timeOffCounter ≤ c.timeOffCeiling
  stopped : r.timeStepsStopped ≤ c.lowPowerThreshold
  ties : r.noDecisionCounter ≤ c.noDecisionCap

/-- The record of a core that has not left `Startup`, or that runs. -/
def ResetOrRunning (c : Cfg) (r : Regs) : Prop := r = resetRegs c ∨ Running c r

theorem zero_le_word {n : Nat} (x : BitVec n) : 0 ≤ x := by
  rw [BitVec.le_def, BitVec.ofNat_eq_ofNat, BitVec.toNat_ofNat, Nat.zero_mod]
  exact Nat.zero_le _

theorem mode_ne_zero_iff (m : ModeBits) : m ≠ 0 ↔ 1 ≤ m.toNat := by
  rw [← BitVec.toNat_ne_iff_ne, Nat.one_le_iff_ne_zero]
  rfl

theorem inv_iff {s : State} : Inv s ↔ ResetOrRunning s.cfg s.regs := by
  refine ⟨fun h => ?_, fun h => ?_⟩
  · by_cases hmode : s.regs.mode = 0
    · exact .inl (h.startup hmode)
    · exact .inr ⟨⟨(mode_ne_zero_iff _).mp hmode, h.modeDefined⟩, h.bounds, h.travel, h.configured, h.idle, h.stopped, h.ties⟩
  · obtain hreset | hrunning := h
    · have hmode : s.regs.mode = 0 := congrArg Regs.mode hreset
      constructor
      case modeDefined => rw [hmode]; decide
      case startup => exact fun _ => hreset
      case bounds =>
        refine .inl ⟨?_, ?_, by rw [hmode]; decide⟩ <;> rw [hreset] <;> rfl
      case configured => exact fun hlate => absurd hlate (by rw [hmode]; decide)
      case travel => rw [hreset]; exact BitVec.le_refl _
      all_goals rw [hreset]; exact zero_le_word _
    · obtain ⟨⟨hlow, hhigh⟩, hbounds, htravel, hconfigured, hidle, hstopped, hties⟩ := hrunning
      exact ⟨hhigh, fun h0 => absurd h0 ((mode_ne_zero_iff _).mpr hlow), hbounds, htravel, hconfigured, hidle, hstopped, hties⟩

theorem inv_reset : Inv State.reset := inv_iff.mpr (.inl reset_regs_eq)

/-! ### The counters and the travel -/

section
variable {c : Cfg} {r : Regs}

/-- R37: a tie counts up only below the cap, and anything else clears the counter. -/
theorem nextTies_le (c : Cfg) (sum : Nat) (ties : U8) : nextTies c sum ties ≤ c.noDecisionCap := by
  unfold nextTies
  split_ifs with _ _ hcap
  · exact zero_le_word _
  · exact zero_le_word _
  · exact zero_le_word _
  · bv_omega

theorem serveSampleRegs_ties_le (h : r.noDecisionCounter ≤ c.noDecisionCap) :
    (serveSampleRegs c r).noDecisionCounter ≤ c.noDecisionCap := by
  obtain ⟨-, hr⟩ | ⟨-, -, hr⟩ | ⟨-, -, hr⟩ := serveSampleRegs_cases c r <;> rw [hr]
  · exact h
  · exact h
  · rw [decideRegs_ties]
    exact nextTies_le c _ _

theorem servedRegs_ties (inp : Inputs) :
    (servedRegs c inp r).noDecisionCounter = (serveSampleRegs c r).noDecisionCounter := by
  unfold servedRegs
  split <;> rfl

/-- R32: the served slow tick counts up only below the ceiling. -/
theorem servedRegs_idle_le (inp : Inputs) (h : r.timeOffCounter ≤ c.timeOffCeiling) :
    (servedRegs c inp r).timeOffCounter ≤ c.timeOffCeiling := by
  have hsample : (serveSampleRegs c r).timeOffCounter = r.timeOffCounter :=
    congrArg TickFields.idle (tickFields_serveSampleRegs c r)
  unfold servedRegs
  split
  · exact incSat_le _ _ (hsample ▸ h)
  · exact hsample ▸ h

theorem Running.ordered (h : Running c r) : r.minPosition ≤ r.maxPosition ∧ r.maxPosition ≤ c.posFullMax := by
  have hpositions := c.positions_ordered
  obtain ⟨hmin, hmax, -⟩ | ⟨hmin, hmax, -⟩ := h.bounds <;> rw [hmin, hmax]
  · exact ⟨zero_le_word _, BitVec.le_refl _⟩
  · exact hpositions

/-- R27: both the position and the clamped target lie in the full range, and so does what lies between them. -/
theorem Running.step_travel (h : Running c r) : (stepRegs c r).currentPosition ≤ c.posFullMax := by
  obtain ⟨hbounds, hfull⟩ := h.ordered
  obtain ⟨-, hmax⟩ := within_clampedTarget hbounds
  rw [stepRegs_position]
  exact (within_moveToward (lo := 0) ⟨zero_le_word _, h.travel⟩ ⟨zero_le_word _, BitVec.le_trans hmax hfull⟩).2

theorem Running.step_stopped (h : Running c r) : (stepRegs c r).timeStepsStopped ≤ c.lowPowerThreshold := by
  rw [stepRegs_eq]
  dsimp only
  split
  · exact zero_le_word _
  · exact incSat_le _ _ h.stopped

/-! ### Each operation on a running core -/

theorem Running.step (h : Running c r) : Running c (stepRegs c r) := by
  have hframe := stepRegs_eq c r
  have htravel := h.step_travel
  have hstopped := h.step_stopped
  rw [hframe] at htravel hstopped ⊢
  exact { h with travel := htravel, stopped := hstopped }

theorem Running.served (h : Running c r) (inp : Inputs) : Running c (servedRegs c inp r) where
  mode := by rw [servedRegs_mode]; exact h.mode
  bounds := by rw [servedRegs_minPosition, servedRegs_maxPosition, servedRegs_mode]; exact h.bounds
  travel := by rw [servedRegs_position]; exact h.travel
  configured := by rw [servedRegs_mode, servedRegs_notConfigured]; exact h.configured
  idle := servedRegs_idle_le inp h.idle
  stopped := by rw [servedRegs_stopped]; exact h.stopped
  ties := by rw [servedRegs_ties]; exact serveSampleRegs_ties_le h.ties

theorem Running.autoZero (h : Running c r) (hmode : r.mode = 1) : Running c (autoZeroRegs c r) := by
  have hone : ¬ 2 ≤ r.mode.toNat := by rw [hmode]; decide
  have htwo : (1 ≤ (2 : ModeBits).toNat ∧ (2 : ModeBits).toNat ≤ 4) ∧ (2 : ModeBits).toNat ≤ 2 := by decide
  obtain ⟨hmin, hmax, -⟩ := h.bounds.resolve_right fun hlate => hone hlate.2.2
  unfold autoZeroRegs
  split
  next hleave => exact { h with mode := htwo.1, bounds := .inl ⟨hmin, hmax, htwo.2⟩, configured := fun _ => hleave.2 }
  next => exact { h with }

theorem Running.autoHome (h : Running c r) (hmode : r.mode = 2) : Running c (autoHomeRegs c r) := by
  have htwo : 2 ≤ r.mode.toNat := by rw [hmode]; decide
  have hthree : (1 ≤ (3 : ModeBits).toNat ∧ (3 : ModeBits).toNat ≤ 4) ∧ 2 ≤ (3 : ModeBits).toNat := by decide
  have hconfigured := h.configured htwo
  unfold autoHomeRegs
  split
  · exact { h with mode := hthree.1, bounds := .inr ⟨rfl, rfl, hthree.2⟩, configured := fun _ => hconfigured }
  · exact { h with bounds := .inr ⟨rfl, rfl, htwo⟩ }

/-- Between the two run modes the bounds stay the operational ones. -/
theorem Running.switch (h : Running c r) (hmode : 3 ≤ r.mode.toNat) {m : ModeBits} (h3 : 3 ≤ m.toNat) (h4 : m.toNat ≤ 4) :
    Running c { r with mode := m } := by
  have hconfigured := h.configured (Nat.le_of_succ_le hmode)
  obtain ⟨hmin, hmax, -⟩ := h.bounds.resolve_left fun hearly => absurd hearly.2.2 (by omega)
  exact { h with
    mode := ⟨Nat.le_trans (by decide) h3, h4⟩
    bounds := .inr ⟨hmin, hmax, Nat.le_of_succ_le h3⟩
    configured := fun _ => hconfigured }

theorem Running.runAfc (h : Running c r) (hmode : r.mode = 3) : Running c (runAfcRegs r) := by
  have hthree : 3 ≤ r.mode.toNat := by rw [hmode]; decide
  unfold runAfcRegs
  split
  · exact { h.switch hthree (m := 4) (by decide) (by decide) with }
  · exact { h with }

theorem Running.runManual (h : Running c r) (hmode : r.mode = 4) : Running c (runManualRegs r) := by
  have hfour : 3 ≤ r.mode.toNat := by rw [hmode]; decide
  unfold runManualRegs
  split
  · exact { h with }
  · exact { h.switch hfour (m := 3) (by decide) (by decide) with }

theorem Running.loop (h : Running c r) (inp : Inputs) : Running c (loopRegs c inp r) := by
  have hserved := h.served inp
  obtain ⟨hm, hb⟩ | ⟨hm, hb⟩ | ⟨hm, hb⟩ | ⟨hm, hb⟩ | ⟨hm, hb⟩ | ⟨hm, hb⟩ := loopRegs_cases c inp r <;> rw [hb]
  · exact absurd hm ((mode_ne_zero_iff _).mpr h.mode.1)
  · exact hserved.autoZero ((servedRegs_mode c inp r).trans hm)
  · exact hserved.autoHome ((servedRegs_mode c inp r).trans hm)
  · exact hserved.runAfc ((servedRegs_mode c inp r).trans hm)
  · exact hserved.runManual ((servedRegs_mode c inp r).trans hm)
  · exact absurd h.mode.2 (by omega)

/-- Every operation but the restarts keeps a running core running. -/
theorem Running.after (h : Running c r) (inp : Inputs) {i : Instr} (hword : i.hasTraceWord = true)
    (hrestart : isRestart i = false) : Running c (recordAfter c inp r i) := by
  cases i with
  | reset | trap => cases hrestart
  | loop => exact h.loop inp
  | step => exact gatedRegs_induction h fun _ => h.step
  | setin | cmdUnknown => exact h
  | capture => exact gatedRegs_induction h fun _ => { h with idle := zero_le_word _ }
  | cmdSetHome => exact gatedRegs_induction h fun _ => { h with configured := fun _ => rfl }
  | slowtick | cmdSelectAfc | cmdSelectManual | cmdSetManual | cmdManualUp | cmdManualDown =>
    exact gatedRegs_induction h fun _ => { h with }
  | loopStartup | loopAutoZero | loopAutoHome | loopRunAfc | loopRunManual | loopUndefined => cases hword

/-- Out of reset a `LOOP` waits or starts the homing over the full range (R122). -/
theorem loopRegs_resetRegs (c : Cfg) (inp : Inputs) : ResetOrRunning c (loopRegs c inp (resetRegs c)) := by
  change ResetOrRunning c (startupRegs c inp (resetRegs c))
  have hone : (1 ≤ (1 : ModeBits).toNat ∧ (1 : ModeBits).toNat ≤ 4) ∧ (1 : ModeBits).toNat ≤ 2 ∧ ¬ 2 ≤ (1 : ModeBits).toNat := by
    decide
  unfold startupRegs
  split
  · exact .inr ⟨hone.1, .inl ⟨rfl, rfl, hone.2.1⟩, BitVec.le_refl _, fun htwo => absurd htwo hone.2.2, zero_le_word _,
      zero_le_word _, zero_le_word _⟩
  · exact .inl rfl

theorem ResetOrRunning.after (h : ResetOrRunning c r) (inp : Inputs) {i : Instr} (hword : i.hasTraceWord = true) :
    ResetOrRunning c (recordAfter c inp r i) := by
  cases hrestart : isRestart i with
  | true =>
    obtain rfl | rfl := isRestart_iff.mp hrestart <;> exact .inl rfl
  | false =>
    obtain rfl | hrunning := h
    · cases hgated : isGated i with
      | true => exact .inl (recordAfter_startup c inp rfl hgated)
      | false =>
        cases i with
        | loop => exact loopRegs_resetRegs c inp
        | setin => exact .inl rfl
        | reset | trap => cases hrestart
        | loopStartup | loopAutoZero | loopAutoHome | loopRunAfc | loopRunManual | loopUndefined => cases hword
        | _ => cases hgated
    · exact .inr (hrunning.after inp hword hrestart)

end

theorem inv_stateAfter {s : State} {i : Instr} (h : Inv s) (hword : i.hasTraceWord = true) : Inv (stateAfter i s) :=
  inv_iff.mpr ((inv_iff.mp h).after s.inp hword)

/-! ### Sequences of operations -/

/-- A property that every permitted operation keeps holds after any sequence of them. -/
theorem execAll_keeps {P : State → Prop} {permitted : Instr → Bool}
    (hkeeps : ∀ i s, permitted i = true → P s → P (stateAfter i s)) {s : State} (hs : P s) (ops : List Instr)
    (hops : ∀ i ∈ ops, permitted i = true) : ∃ t, execAll ops s = .next t ∧ P t := by
  induction ops generalizing s with
  | nil => exact ⟨s, rfl, hs⟩
  | cons i ops ih =>
    obtain ⟨hi, hops⟩ := List.forall_mem_cons.mp hops
    obtain ⟨t, hrun, ht⟩ := ih (hkeeps i s hi hs) hops
    exact ⟨t, (execAll_cons (exec_eq i s) ops).trans hrun, ht⟩

theorem execAll_append {s t : State} {is js : List Instr} (h : execAll is s = .next t) : execAll (is ++ js) s = execAll js t := by
  induction is generalizing s with
  | nil => cases h; rfl
  | cons i is ih =>
    rw [execAll_cons (exec_eq i s)] at h
    rw [List.cons_append, execAll_cons (exec_eq i s), ih h]

/-! ### A homing that cannot end (R124 (b)) -/

/-- The core homes inside the operational bounds toward a home outside them, and the motor is on the bounds' side of it. -/
structure Stranded (c : Cfg) (r : Regs) : Prop where
  mode : r.mode = 2
  minimum : r.minPosition = c.posOpMin
  maximum : r.maxPosition = c.posOpMax
  apart : r.homePosition < c.posOpMin ∧ r.homePosition < r.currentPosition
    ∨ c.posOpMax < r.homePosition ∧ r.currentPosition < r.homePosition

section
variable {c : Cfg} {r : Regs}

theorem Stranded.position_ne_home (h : Stranded c r) : r.currentPosition ≠ r.homePosition := by
  have hapart := h.apart
  bv_omega

/-- The motor moves toward a point inside the bounds, and so never onto a home beyond them. -/
theorem Stranded.step (h : Stranded c r) : Stranded c (stepRegs c r) := by
  have hbounds : r.minPosition ≤ r.maxPosition := by
    rw [h.minimum, h.maximum]
    exact c.positions_ordered.1
  obtain ⟨hlow, hhigh⟩ := within_clampedTarget hbounds
  have hmove := moveToward_toNat r.currentPosition (clampedTarget r)
  have hapart := h.apart
  rw [h.minimum] at hlow
  rw [h.maximum] at hhigh
  rw [stepRegs_eq]
  refine { h with apart := ?_ }
  simp only [BitVec.lt_def, BitVec.le_def] at *
  omega

/-- The `LOOP` writes the bounds that are in force and does not find the motor at home. -/
theorem Stranded.loop (h : Stranded c r) (inp : Inputs) : Stranded c (loopRegs c inp r) := by
  have haway : ¬ (servedRegs c inp r).currentPosition = (servedRegs c inp r).homePosition := by
    rw [servedRegs_position, servedRegs_home]
    exact h.position_ne_home
  rw [loopRegs_autoHome c inp h.mode, autoHomeRegs, if_neg haway]
  exact ⟨(servedRegs_mode c inp r).trans h.mode, rfl, rfl, by simpa using h.apart⟩

theorem Stranded.after (h : Stranded c r) (inp : Inputs) {i : Instr} (hi : keepsHome i = true) :
    Stranded c (recordAfter c inp r i) := by
  cases i with
  | reset | trap | cmdSetHome => cases hi
  | loop => exact h.loop inp
  | step => exact gatedRegs_induction h fun _ => h.step
  | setin | cmdUnknown => exact h
  | capture | slowtick | cmdSelectAfc | cmdSelectManual | cmdSetManual | cmdManualUp | cmdManualDown =>
    exact gatedRegs_induction h fun _ => { h with }
  | loopStartup | loopAutoZero | loopAutoHome | loopRunAfc | loopRunManual | loopUndefined => cases hi

theorem Stranded.notReady (h : Stranded c r) : notReady r = true := by
  simp [Machine.notReady, homingInProgress, h.mode]

end

/-! ### A spell of manual mode (R130) -/

/-- Manual mode, still requested, with `target` as the manual target. -/
structure ManualSpell (target : U16) (r : Regs) : Prop where
  mode : r.mode = 4
  requested : r.manualModeReq = true
  target_eq : r.manualTargetPosition = target

section
variable {target : U16} {r : Regs}

theorem ManualSpell.step (h : ManualSpell target r) (c : Cfg) : ManualSpell target (stepRegs c r) := by
  rw [stepRegs_eq]
  exact { h with }

/-- The request holds the core in manual mode, whose body writes no manual target. -/
theorem ManualSpell.loop (h : ManualSpell target r) (c : Cfg) (inp : Inputs) : ManualSpell target (loopRegs c inp r) := by
  rw [loopRegs_runManual c inp h.mode, runManualRegs, servedRegs_manualModeReq, if_pos h.requested]
  exact ⟨(servedRegs_mode c inp r).trans h.mode, h.requested,
    (servedRegs_manualTarget c inp r).trans h.target_eq⟩

theorem ManualSpell.after (h : ManualSpell target r) (c : Cfg) (inp : Inputs) {i : Instr}
    (hi : keepsManualTarget i = true) : ManualSpell target (recordAfter c inp r i) := by
  cases i with
  | reset | trap | cmdSelectAfc | cmdSetManual | cmdManualUp | cmdManualDown => cases hi
  | loop => exact h.loop c inp
  | step => exact gatedRegs_induction h fun _ => h.step c
  | setin | cmdUnknown => exact h
  | cmdSelectManual => exact gatedRegs_induction h fun _ => { h with requested := rfl }
  | capture | slowtick | cmdSetHome => exact gatedRegs_induction h fun _ => { h with }
  | loopStartup | loopAutoZero | loopAutoHome | loopRunAfc | loopRunManual | loopUndefined => cases hi

/-- The spell begins with the target of the `LOOP` that mirrored it (R125). -/
theorem manualSpell_loopRegs (c : Cfg) (inp : Inputs) (hmode : r.mode = 3) (hrequest : r.manualModeReq = true) :
    ManualSpell (loopRegs c inp r).targetPosition (loopRegs c inp r) := by
  rw [loopRegs_runAfc c inp hmode, runAfcRegs, servedRegs_manualModeReq, if_pos hrequest]
  exact ⟨rfl, hrequest, rfl⟩

/-- Without the request manual mode ends, with the manual target as the target (R126). -/
theorem loopRegs_manual_exit (c : Cfg) (inp : Inputs) (hmode : r.mode = 4) (hclear : r.manualModeReq = false) :
    (loopRegs c inp r).mode = 3 ∧ (loopRegs c inp r).targetPosition = r.manualTargetPosition := by
  rw [loopRegs_runManual c inp hmode, runManualRegs, servedRegs_manualModeReq, hclear]
  exact ⟨rfl, servedRegs_manualTarget c inp r⟩

/-- The spell ends with its target, once automatic mode is selected. -/
theorem ManualSpell.ends {s : State} (h : ManualSpell target s.regs) (d0 d1 d2 d3 : U16) :
    ∃ v, execAll [.cmdSelectAfc d0 d1 d2 d3, .loop] s = .next v ∧ v.regs.mode = 3 ∧ v.regs.targetPosition = target := by
  have hselect : recordAfter s.cfg s.inp s.regs (.cmdSelectAfc d0 d1 d2 d3) = { s.regs with manualModeReq := false } :=
    gatedRegs_running (by rw [h.mode]; decide)
  obtain ⟨hmode, htarget⟩ := loopRegs_manual_exit (r := { s.regs with manualModeReq := false }) s.cfg s.inp h.mode rfl
  rw [← hselect] at hmode htarget
  exact ⟨_, (execAll_cons (exec_eq _ s) _).trans (execAll_cons (exec_eq .loop _) []), hmode,
    htarget.trans ((congrArg Regs.manualTargetPosition hselect).trans h.target_eq)⟩

end

/-! ### The obligations -/

/-- Settles O50: the step is that of a trace word, and both kinds of record with `Inv` go to one of the two. -/
theorem everyStepKeepsTheInvariant : Obligations.EveryStepKeepsTheInvariant := by
  intro s t hinv hstep
  cases hdecode : decode s.trace with
  | error e =>
    rw [step_of_error hdecode] at hstep
    cases hstep
  | ok word =>
    obtain ⟨i, rest⟩ := word
    rw [step_of_decode hdecode, exec_eq] at hstep
    cases hstep
    have hloaded : Inv (s.setTrace rest) := inv_iff.mpr ((inv_iff (s := s)).mp hinv)
    exact inv_stateAfter hloaded (isWord_of_decode hdecode).traceWord

/-- Settles O52: the spell is kept by every permitted operation, and its manual target is the last automatic one. -/
theorem manualRoundTripKeepsTheTarget : Obligations.ManualRoundTripKeepsTheTarget := by
  intro s hmode hrequest
  have hstart : ManualSpell (stateAfter .loop s).regs.targetPosition (stateAfter .loop s).regs :=
    manualSpell_loopRegs s.cfg s.inp hmode hrequest
  refine ⟨_, exec_eq .loop s, hstart.mode, hstart.target_eq, fun ops d0 d1 d2 d3 hops => ?_⟩
  obtain ⟨u, hrun, hspell⟩ := execAll_keeps (P := fun u => ManualSpell _ u.regs)
    (fun i u hi hu => hu.after u.cfg u.inp hi) hstart ops hops
  obtain ⟨v, hend, hv⟩ := hspell.ends d0 d1 d2 d3
  exact ⟨v, (execAll_append hrun).trans hend, hv⟩

/-- Settles O53: the core stays stranded under every permitted operation. -/
theorem homeOutsideTheRangeHoldsTheCoreInAutoHome : Obligations.HomeOutsideTheRangeHoldsTheCoreInAutoHome := by
  intro s ops hmode hmin hmax hapart hops
  obtain ⟨t, hrun, ht⟩ := execAll_keeps (P := fun t => Stranded t.cfg t.regs) (fun i t hi h => h.after t.inp hi)
    ⟨hmode, hmin, hmax, hapart⟩ ops hops
  exact ⟨t, hrun, ht.mode, ht.notReady⟩

/-- A motor that stands at position 50, below the range of `REFCFG`, with the home set there, in `AutoHome`. -/
def atLowHome : State :=
  { State.reset with
    regs := { resetRegs refCfg with mode := 2, notConfigured := false, homePosition := 50, currentPosition := 50 } }

theorem inv_atLowHome : Inv atLowHome :=
  inv_iff.mpr <| .inr
    { mode := by decide
      bounds := .inl ⟨rfl, rfl, by decide⟩
      travel := by decide
      configured := fun _ => rfl
      idle := by decide
      stopped := by decide
      ties := by decide }

/-- Refutes O54: the `LOOP` finds the motor at a home below the range, and ends the homing (log 17). -/
theorem not_homeOutsideTheRangeNeverEndsHoming : ¬ Obligations.HomeOutsideTheRangeNeverEndsHoming := by
  intro h
  have hends : (stateAfter .loop atLowHome).regs.mode = 3 := rfl
  have hstays := h atLowHome _ inv_atLowHome rfl (.inl (by decide)) (exec_eq .loop atLowHome)
  exact absurd (hends.symm.trans hstays) (by decide)

/-- Settles O51: the reset state has the reset record of `REFCFG`. -/
theorem resetHasTheInvariant : Obligations.ResetHasTheInvariant := ⟨inv_reset, isResetRecord_resetRegs State.reset.cfg⟩

end Sys2Proof.Proofs.Invariant
end

section
/-! Identical samples (42_direction_decision.md R181). Against a history whose entries are empty or at the sample's own position every
vote is without data, so every sum is a tie, and the tie counter alone decides when the direction is inverted. -/

namespace Sys2Proof.Proofs.Ties

open Sys2Proof.Machine Sys2Proof.Config Sys2Proof.Proofs.Direction

/-- Every entry is empty or at the position of `e` (R181). -/
def Uniform (e : HistEntry) (h : Vector HistEntry 16) : Prop :=
  ∀ j, (histRead h j).position = 0 ∨ (histRead h j).reversePowerDb = 0 ∨ (histRead h j).position = e.position

section
variable (c : Cfg) {e : HistEntry} {r : Regs}

theorem quietPair_of_uniform {h : Vector HistEntry 16} (huniform : Uniform e h) (j : BitVec 4) : QuietPair c e (histRead h j) := by
  obtain hempty | hsilent | hsame := huniform j
  · exact .inl hempty
  · exact .inr (.inl hsilent)
  · refine .inr (.inr (.inl ?_))
    rw [hsame, absdiff_self]
    exact c.minChanges_pos.1

/-- Fifteen votes without data, each of value 1. -/
theorem voteSum_of_uniform {h : Vector HistEntry 16} {a : BitVec 4} (huniform : Uniform e h) (hnewest : histRead h a = e) :
    voteSum c h a = 15 := by
  have hvote (k : Nat) : voteValue (compareVote c (histRead h a) (histRead h (a - BitVec.ofNat 4 k))) = 1 := by
    rw [hnewest, compareVote_of_quietPair (quietPair_of_uniform c huniform _)]
    rfl
  simp only [voteSum_eq_sum, hvote, Finset.sum_const, Nat.card_Icc, smul_eq_mul]

theorem uniform_decideSample (h : Uniform e r.hist) : Uniform e (decideSample c r e).hist := by
  intro j
  rw [decideSample_hist]
  by_cases hj : j = r.activeIndex + 1
  · rw [hj, histRead_histWrite_same]
    exact .inr (.inr rfl)
  · rw [histRead_histWrite_other _ _ _ _ hj]
    exact h j

theorem voteSum_decideSample (h : Uniform e r.hist) :
    voteSum c (decideSample c r e).hist (decideSample c r e).activeIndex = 15 := by
  refine voteSum_of_uniform c (uniform_decideSample c h) ?_
  rw [decideSample_hist, decideSample_activeIndex, histRead_histWrite_same]

theorem decideSample_ties (h : Uniform e r.hist) : (decideSample c r e).noDecisionCounter = nextTies c 15 r.noDecisionCounter := by
  rw [← voteSum_decideSample c h]
  exact decideRegs_ties c _

/-- A tie at the cap inverts the direction and counts one inversion, saturating (R175, R176). -/
theorem decideRegs_inversions_of_tie_at_cap (htie : decideSum c r = 15) (hcap : c.noDecisionCap ≤ r.noDecisionCounter) :
    (decideRegs c r).inversionCounter.toNat = min (r.inversionCounter.toNat + 1) 0xFFFF := by
  have hdir : decideDir c r ≠ decidePrev r := by
    rw [decideDir, htie]
    exact (decision_of_tie_at_cap c _ hcap).1
  rw [decideRegs_inversions, decideInversions, nextInversions_toNat, if_neg hdir]

theorem decideSample_inversions (h : Uniform e r.hist) (hcap : c.noDecisionCap ≤ r.noDecisionCounter) :
    (decideSample c r e).inversionCounter.toNat = min (r.inversionCounter.toNat + 1) 0xFFFF :=
  decideRegs_inversions_of_tie_at_cap c (voteSum_decideSample c h) hcap

variable (e r) in
/-- The record after `n` identical samples. -/
def afterSamples (n : Nat) : Regs := (fun q => decideSample c q e)^[n] r

theorem afterSamples_succ (n : Nat) : afterSamples c e r (n + 1) = decideSample c (afterSamples c e r n) e :=
  Function.iterate_succ_apply' _ _ _

theorem uniform_afterSamples (h : Uniform e r.hist) (n : Nat) : Uniform e (afterSamples c e r n).hist := by
  induction n with
  | zero => exact h
  | succ n ih =>
    rw [afterSamples_succ]
    exact uniform_decideSample c ih

/-- Up to the cap every sample is one more tie. -/
theorem afterSamples_ties (h : Uniform e r.hist) (hstart : r.noDecisionCounter = 0) {n : Nat} (hn : n ≤ c.noDecisionCap.toNat) :
    (afterSamples c e r n).noDecisionCounter.toNat = n := by
  induction n with
  | zero => exact congrArg BitVec.toNat hstart
  | succ n ih =>
    have hcount := ih (Nat.le_of_succ_le hn)
    have hbelow : (afterSamples c e r n).noDecisionCounter < c.noDecisionCap := by
      rw [BitVec.lt_def, hcount]
      exact hn
    rw [afterSamples_succ, decideSample_ties c (uniform_afterSamples c h n), (decision_of_tie_below_cap c .up hbelow).2, hcount]

end

/-- Settles O30: the history stays uniform, so every sum is a tie; the counter reaches the cap, where the next tie inverts. -/
theorem identicalSamplesForceAnInversion : Obligations.IdenticalSamplesForceAnInversion := by
  intro c r e hstart huniform
  change (∀ n, voteSum c (afterSamples c e r (n + 1)).hist (afterSamples c e r (n + 1)).activeIndex = 15)
    ∧ (∀ n, n ≤ c.noDecisionCap.toNat → (afterSamples c e r n).noDecisionCounter.toNat = n)
    ∧ (afterSamples c e r (c.noDecisionCap.toNat + 1)).noDecisionCounter = 0
    ∧ (afterSamples c e r (c.noDecisionCap.toNat + 1)).inversionCounter.toNat
        = min ((afterSamples c e r c.noDecisionCap.toNat).inversionCounter.toNat + 1) 0xFFFF
  have hkept := uniform_afterSamples c huniform
  have hties {n : Nat} (hn : n ≤ c.noDecisionCap.toNat) := afterSamples_ties c huniform hstart hn
  have hcap : c.noDecisionCap ≤ (afterSamples c e r c.noDecisionCap.toNat).noDecisionCounter := (hties (Nat.le_refl _)).ge
  refine ⟨fun n => ?_, fun n => hties, ?_, ?_⟩
  · rw [afterSamples_succ]
    exact voteSum_decideSample c (hkept n)
  · rw [afterSamples_succ, decideSample_ties c (hkept _)]
    exact (decision_of_tie_at_cap c .up hcap).2
  · rw [afterSamples_succ]
    exact decideSample_inversions c (hkept _) hcap

end Sys2Proof.Proofs.Ties
end

section
/-! The decay of the cooldown target (44_cooldown_status.md R225, R229). The multiplier is the cooldown curve at the idle count's bucket;
the curve never rises and ends at 0, and the target is as far from home as the multiplier says. -/

namespace Sys2Proof.Proofs.Cooldown

open Sys2Proof.Machine Sys2Proof.Config Sys2Proof.Proofs.SlowTick Sys2Proof.Proofs.Transition Sys2Proof.Proofs.Frames

section
variable (c : Cfg)

/-- The bucket of an idle count on the cooldown curve. -/
def bucket (idle : U32) : Nat := idle.toNat / 2 ^ c.cooldownShift

theorem bucket_mono {x y : U32} (h : x ≤ y) : bucket c x ≤ bucket c y := Nat.div_le_div_right h

theorem bucket_ceiling : bucket c c.timeOffCeiling = c.timeOffCeiling.toNat >>> c.cooldownShift :=
  (Nat.shiftRight_eq_div_pow _ _).symm

/-- R7 (7): the ceiling's bucket is on the curve, and so is every bucket before it. -/
theorem bucket_le {idle : U32} (h : idle ≤ c.timeOffCeiling) : bucket c idle ≤ 255 :=
  (bucket_mono c h).trans ((bucket_ceiling c).trans_le c.idle_ordered.2.2)

/-- The multiplier of an idle count (R225). -/
def multiplier (idle : U32) : U16 := coolRead c (coolIndex c idle)

theorem multiplier_toNat {idle : U32} (h : idle ≤ c.timeOffCeiling) : (multiplier c idle).toNat = c.coolAt (bucket c idle) := by
  have hindex : (coolIndex c idle).toNat = bucket c idle := by
    rw [coolIndex_eq, ← bucket, Nat.min_eq_left (bucket_le c h), BitVec.toNat_ofNat]
    exact Nat.mod_eq_of_lt (Nat.lt_succ_of_le (bucket_le c h))
  rw [multiplier, c.coolRead_toNat, hindex]

theorem multiplier_le {idle : U32} (h : idle ≤ c.timeOffCeiling) : (multiplier c idle).toNat ≤ 2 ^ c.cooldownFracBits := by
  rw [multiplier_toNat c h]
  exact c.cool_le _ (bucket_le c h)

theorem multiplier_antitone {x y : U32} (hxy : x ≤ y) (hy : y ≤ c.timeOffCeiling) :
    (multiplier c y).toNat ≤ (multiplier c x).toNat := by
  rw [multiplier_toNat c hy, multiplier_toNat c (BitVec.le_trans hxy hy)]
  exact c.cool_antitone _ _ (bucket_mono c hxy) (bucket_le c hy)

theorem multiplier_ceiling : multiplier c c.timeOffCeiling = 0 := by
  apply BitVec.eq_of_toNat_eq
  rw [multiplier_toNat c (BitVec.le_refl _), bucket_ceiling]
  exact c.cool_end

variable {c}

/-- R223 to R225: from the threshold on, a served tick without a sample aims at the blend of the new idle count. -/
theorem servedRegs_cooldown (inp : Inputs) {r : Regs} (hmode : r.mode = 3) (hsample : r.sampleComplete = false)
    (hflag : r.slowTickFlag = true) (hpast : c.cooldownStartThreshold ≤ r.timeOffCounter) :
    (servedRegs c inp r).targetPosition
      = blend c.cooldownFracBits r.afcHotPosition r.homePosition (multiplier c (servedRegs c inp r).timeOffCounter) := by
  have hnoSample : serveSampleRegs c r = r := by rw [serveSampleRegs, hsample]; rfl
  have hidle := nextIdle_toNat c { r with slowTickFlag := false }
  have hcooling : cooling c { r with slowTickFlag := false } = true := by
    rw [cooling_iff, hidle]
    rw [BitVec.le_def] at hpast
    dsimp only
    split <;> omega
  have hhot : nextHot c { r with slowTickFlag := false } = r.afcHotPosition := if_neg fun h => absurd hpast (BitVec.not_le.mpr h.1)
  rw [servedRegs, if_pos hflag, hnoSample, slowsvcRegs_target_of_cooling c inp _ hcooling hmode, cooldownTarget, hhot]
  rfl

end

/-- Settles O33: the distance from home is scaled by the multiplier, which follows the curve; a `LOOP` in `RunAfc` keeps the target
that its served tick wrote. -/
theorem cooldownDecaysToHome : Obligations.CooldownDecaysToHome := by
  intro c hot home x y hxy hy multiplier' target
  have hx : x ≤ c.timeOffCeiling := BitVec.le_trans hxy hy
  have hmx : multiplier' x = c.coolAt (bucket c x) := multiplier_toNat c hx
  have hmy : multiplier' y = c.coolAt (bucket c y) := multiplier_toNat c hy
  refine ⟨?_, fun hsame => ?_, fun hnext => ?_, ?_, ?_⟩
  · have hdx : absdiff (target x) home = _ := absdiff_blend_home (multiplier_le c hx)
    have hdy : absdiff (target y) home = _ := absdiff_blend_home (multiplier_le c hy)
    rw [hdx, hdy]
    exact scaledDistance_mono (multiplier_antitone c hxy hy) _ _
  · rw [hmx, hmy]
    exact congrArg c.coolAt hsame
  · have hbucket : bucket c x + 1 = bucket c y := hnext
    have hcurve := bucket_le c hy
    rw [hmx, hmy, ← hbucket]
    exact (c.cool_step (bucket c x) (by omega)).2
  · change blend c.cooldownFracBits hot home (multiplier c c.timeOffCeiling) = home
    rw [multiplier_ceiling, blend_zero]
  · rintro s rfl hmode hsample hflag rfl rfl hpast
    refine ⟨_, exec_eq .loop s, ?_⟩
    have hloop : (stateAfter .loop s).regs = _ := loopRegs_runAfc s.cfg s.inp hmode
    rw [hloop]
    exact servedRegs_cooldown s.inp hmode hsample hflag hpast

end Sys2Proof.Proofs.Cooldown
end

section
/-! Samples, calibrations and the outputs after a restart (70_reset_and_hazards.md R310, R321; 00_scope.md R6). -/

namespace Sys2Proof.Proofs.Samples

open Sys2Proof.Machine Sys2Proof.Config Sys2Proof.Proofs.Sampling Sys2Proof.Proofs.Actuator Sys2Proof.Proofs.Transition
  Sys2Proof.Proofs.Frames

/-! ### Two captures before a LOOP (R321) -/

section
variable (c : Cfg) (r : Regs)

/-- The slow-tick half of `SERVICE` leaves the history of the sample half. -/
theorem servedRegs_hist (inp : Inputs) :
    (servedRegs c inp r).hist = (serveSampleRegs c r).hist ∧ (servedRegs c inp r).activeIndex = (serveSampleRegs c r).activeIndex := by
  unfold servedRegs
  split <;> exact ⟨rfl, rfl⟩

variable {r} in
/-- A `LOOP` in `RunAfc` that finds a sample appends its entry (40_control_state_machine.md R121, R125). -/
theorem loopRegs_hist_of_sample (inp : Inputs) (hmode : r.mode = 3) (hsample : r.sampleComplete = true) :
    (loopRegs c inp r).activeIndex = r.activeIndex + 1
      ∧ (loopRegs c inp r).hist = histWrite r.hist (r.activeIndex + 1)
          ⟨r.positionAtTrigger, toDb c (calApply c.calRev r.revRawExt), toDb c (calApply c.calFwd r.fwdRawExt)⟩ := by
  obtain ⟨hhist, hindex⟩ := servedRegs_hist c r inp
  have hserved : serveSampleRegs c r = decideRegs c (postpulseRegs c { r with sampleComplete := false }) := by
    rw [ControlLoop.serveSampleRegs_eq, if_pos hsample, if_pos hmode]
  rw [hserved, decideRegs_hist] at hhist
  rw [hserved, decideRegs_activeIndex] at hindex
  rw [loopRegs_runAfc c inp hmode]
  exact ⟨hindex, hhist⟩

theorem incWrap16_twice (v : U16) : incWrap16 (incWrap16 v) = v + 2 := by
  unfold incWrap16
  bv_omega

/-- Of two captures the second alone is left, but for the pulse of the first. -/
theorem captureRegs_twice (ri re fi fe ri' re' fi' fe' : U16) :
    captureRegs c ri' re' fi' fe' (captureRegs c ri re fi fe r)
      = { captureRegs c ri' re' fi' fe' r with pulsesOnThisRun := r.pulsesOnThisRun + 2 } := by
  rw [← incWrap16_twice]
  rfl

variable {r} in
theorem recordAfter_capture_running (inp : Inputs) (hmode : r.mode ≠ 0) (ri re fi fe : U16) :
    recordAfter c inp r (.capture ri re fi fe) = captureRegs c ri re fi fe r := gatedRegs_running hmode

end

/-! ### Calibration tables (00_scope.md R6; log 2) -/

/-- The table of a function on the listed readings stands for the function there. -/
theorem calApply_map (f : U16 → U16) {x : U16} {xs : List U16} (h : x ∈ xs) : calApply (xs.map fun k => (k, f k)) x = f x := by
  induction xs with
  | nil => cases h
  | cons k xs ih =>
    rw [List.map_cons, calApply]
    split
    next heq => rw [heq]
    next hne => exact ih ((List.mem_cons.mp h).resolve_left hne)

/-! ### The outputs after a restart (R310) -/

section
variable {c : Cfg} {r : Regs}

/-- R7 (9): a threshold of at least 1 keeps a stopped counter of 0 out of low power. -/
theorem powerModeLow_reset (h : IsResetRecord c r) : powerModeLow c r = false := by
  have hpos := c.lowPower_pos
  rw [powerModeLow, h.stopped, decide_eq_false_iff_not]
  bv_omega

theorem homingInProgress_reset (h : IsResetRecord c r) : homingInProgress r = false := by
  rw [homingInProgress, h.mode]
  rfl

theorem notReady_reset (h : IsResetRecord c r) : notReady r = false := by
  obtain ⟨-, hcomm, -⟩ := h.latches
  rw [notReady, hcomm, homingInProgress_reset h]
  rfl

/-- Of all bits only `not_configured`, bit 2, is set. -/
theorem statusWord_reset (h : IsResetRecord c r) : statusWord c r = 0x0004#16 := by
  obtain ⟨hsample, htick⟩ := h.markers
  obtain ⟨hfast, -, -⟩ := h.decisions
  obtain ⟨hmanual, hcomm, -⟩ := h.latches
  rw [statusWord, powerModeLow_reset h, homingInProgress_reset h, notReady_reset h, h.mode, hsample, htick, hfast, hmanual, hcomm,
    h.configured]
  rfl

theorem pwmDuty_reset (h : IsResetRecord c r) (k : Fin 4) :
    pwmDuty c r k = c.pwmh.get ((c.posFullMax.toNat + 32 * k.val) % 128) (Nat.mod_lt _ (by decide)) := by
  have htable : pwmTable c r = c.pwmh := if_neg (by rw [powerModeLow_reset h]; decide)
  have hindex : (pwmIndex r.currentPosition k).toNat = (c.posFullMax.toNat + 32 * k.val) % 128 := by
    rw [pwmIndex_toNat, h.positions.1, Nat.mod_add_mod]
  simp only [pwmDuty, pwmRead, htable, hindex]

end

/-! ### The obligations -/

/-- Settles O3, each output by its value on the reset record. -/
theorem outputsRightAfterReset : Obligations.OutputsRightAfterReset := by
  intro c r h
  obtain ⟨-, hcomm, -⟩ := h.latches
  obtain ⟨hfast, -, -⟩ := h.decisions
  refine ⟨homingInProgress_reset h, notReady_reset h, hcomm, powerModeLow_reset h, ?_, statusWord_reset h, pwmDuty_reset h⟩
  rw [stepRateFast, hfast]
  rfl

/-- Settles O8: `SERVICE`, then the writes of `autoHomeRegs`. -/
theorem autoHomeNarrowsAndAimsAtHome : Obligations.AutoHomeNarrowsAndAimsAtHome :=
  fun s => ⟨_, rfl, ControlLoop.onlyRegs_bodyAutoHome s⟩

/-- Settles O16: the second capture overwrites all of the first but its pulse, and the `LOOP` appends the one sample that is left. -/
theorem secondCaptureReplacesTheSample : Obligations.SecondCaptureReplacesTheSample := by
  intro s a b hmode
  have hrunning : s.regs.mode ≠ 0 := by rw [hmode]; decide
  have hfirst : (stateAfter (.capture a.revInt a.revExt a.fwdInt a.fwdExt) s).regs = _ :=
    recordAfter_capture_running s.cfg s.inp hrunning _ _ _ _
  have halone : (stateAfter (.capture b.revInt b.revExt b.fwdInt b.fwdExt) s).regs = _ :=
    recordAfter_capture_running s.cfg s.inp hrunning _ _ _ _
  have hboth : (stateAfter (.capture b.revInt b.revExt b.fwdInt b.fwdExt)
      (stateAfter (.capture a.revInt a.revExt a.fwdInt a.fwdExt) s)).regs = _ :=
    recordAfter_capture_running s.cfg s.inp (hfirst ▸ hrunning) _ _ _ _
  rw [hfirst] at hboth
  have hloop := congrArg (loopRegs s.cfg s.inp) hboth
  obtain ⟨hindex, hhist⟩ := loopRegs_hist_of_sample s.cfg s.inp
    (r := captureRegs s.cfg b.revInt b.revExt b.fwdInt b.fwdExt (captureRegs s.cfg a.revInt a.revExt a.fwdInt a.fwdExt s.regs))
    hmode rfl
  rw [← hloop] at hindex hhist
  refine ⟨_, _, stateAfter .loop _, (execAll_cons (exec_eq _ s) _).trans (execAll_cons (exec_eq _ _) []), exec_eq _ s, ?_,
    exec_eq .loop _, hindex, ?_, fun j hj => ?_⟩
  · rw [hboth, captureRegs_twice, halone]
  · exact (congrArg₂ histRead hhist hindex).trans (histRead_histWrite_same _ _ _)
  · exact (congrArg (histRead · j) hhist).trans (histRead_histWrite_other _ _ _ _ fun heq => hj (heq.trans hindex.symm))

/-- Settles O25: the table that lists every 16-bit reading. -/
theorem everyCalibrationIsATable : Obligations.EveryCalibrationIsATable := by
  refine fun f => ⟨((List.range (2 ^ 16)).map (BitVec.ofNat 16)).map fun k => (k, f k), fun x => calApply_map f ?_⟩
  exact List.mem_map.mpr ⟨x.toNat, List.mem_range.mpr x.isLt, (BitVec.ofNat_toNat 16 x).trans (BitVec.setWidth_eq x)⟩

end Sys2Proof.Proofs.Samples
end
